-- ==== Sys2Proof/Word.lean ====
section
/-! DEFINITION. The widths of the engine's values (00_scope.md R6, R9), each under its own name: every value is unsigned.
DESIGN CHOICE, log entry 19: a width is a constant of the types, not a field of `Params`. -/

namespace Sys2Proof

/-- `ACC_WIDTH`, the width of the CRC accumulator (R6). -/
def Config.accWidth : Nat := 8

/-- `RAW_WIDTH`, the width of a raw reading (R6). -/
def Config.rawWidth : Nat := 16

/-- `HOST_WIDTH`, the width of a host register (R6). -/
def Config.hostWidth : Nat := 16

/-- `HOST_REGS`, the number of host registers (R6), selected by a 3-bit index (R22). -/
def Config.hostRegs : Nat := 8

/-- `BUSREQ_WIDTH`, the width of a bus request word (R6). -/
def Config.busReqWidth : Nat := 24

/-- `u8`: a byte on the bus, a command's `ARG`. -/
abbrev Byte := BitVec 8

/-- The CRC accumulator (R33). -/
abbrev Accum := BitVec (delta% Config.accWidth)

/-- `u16`: a host register, a command word, a bus response word. -/
abbrev Word := BitVec (delta% Config.hostWidth)

/-- A raw reading (R174). -/
abbrev Raw := BitVec (delta% Config.rawWidth)

/-- `u24`: a bus request word (R81). -/
abbrev ReqWord := BitVec (delta% Config.busReqWidth)

/-- A wait duration in microseconds, `q[19:0]` of a bus request word (R81). -/
abbrev Duration := BitVec 20

/-- The 3-bit index of the host registers (R22). -/
abbrev RegIndex := BitVec 3

end Sys2Proof
end

