-- ==== Sys2Proof/Config.lean ====
section
/-! DEFINITION. The parameters of 00_scope.md R6 (93_implementation_defined.md U2, U3) and the free value of 10_state.md
R39. The parameters are data the model takes: State holds them (log entry 1), no step changes them, and a statement about
every state holds for every value of them unless it names the values it is about. -/

namespace Sys2Proof

/-- The parameters whose value the source gives as a literal (R6, U3). -/
structure Literals where
  /-- `POLY`, the CRC feedback constant (R123). -/
  poly : Byte
  /-- `CMD_RESET`, the sensor's reset command byte (R142). -/
  cmdReset : Byte
  /-- `RESET_TOGGLES`, the clock pulses of the bus reset (R142). -/
  resetToggles : Nat
  /-- `POLL_LIMIT`, the poll counter's start value (R173). -/
  pollLimit : Byte
  /-- `T_BIT`, the bit-level wait, in microseconds. -/
  tBit : Duration
  /-- `T_POLL`, the wait before each poll sample, in microseconds. -/
  tPoll : Duration
  /-- `T_INIT`, the start-up settle wait, in microseconds. -/
  tInit : Duration
deriving DecidableEq, Repr

/-- The parameters of R6: the source's literals, and the two sensor command bytes R6 leaves OPEN (D6, U2). -/
structure Params extends Literals where
  /-- `CMD_TEMP`, the sensor command byte of a TEMPERATURE measurement. -/
  cmdTemp : Byte
  /-- `CMD_HUM`, the sensor command byte of a HUMIDITY measurement. -/
  cmdHum : Byte
deriving DecidableEq, Repr

/-- The values R6 gives, which are normative. A corrected literal changes one field here. -/
def Literals.normative : Literals where
  poly := 0x31
  cmdReset := 0x1E
  resetToggles := 9
  pollLimit := 62
  tBit := 2
  tPoll := 5000
  tInit := 20000

/-- The defaults of R6: the normative literals, and 0x03 and 0x05 for the two OPEN bytes. PRESUMED, log entry 1: the spec
takes the last two from general knowledge (G2). -/
def Params.default : Params := { Literals.normative with cmdTemp := 0x03, cmdHum := 0x05 }

/-- FREE VALUE (log entry 5): the value the `n`-th host read of a register other than STATUS made while a command
runs returns, "an arbitrary 16-bit value (a draw)" (10_state.md R39). Nothing constrains it. -/
opaque Config.freeRead : Nat → Word

end Sys2Proof
end

