-- ==== Sys2Proof/Machine/CrcEngine.lean ====
section
/-! DEFINITION. The two functions of the CRC-8 engine (41_crc.md R120, R122, R123). -/

namespace Sys2Proof.Machine

open Sys2Proof

/-- `r[7 - i] := b[i]`, the other bits of `r` as they are (R122). -/
def mirrorBit (b r : Byte) (i : Nat) : Byte :=
  let m : Byte := 1 <<< (7 - i)
  if b.getLsbD i then r ||| m else r &&& ~~~m

/-- `mirror(b)`: the bit order of the byte reversed (R122). -/
def mirror (b : Byte) : Byte := [0, 1, 2, 3, 4, 5, 6, 7].foldl (mirrorBit b) 0

/-- One of the eight iterations of `mutate` on the 16-bit pair `(a, d)` (R123), `poly` being
`POLY`; the tested bit is bit 7 (R124). -/
def mutateStep (poly : Byte) (ad : Word × Word) : Word × Word :=
  if (ad.1 ^^^ ad.2) &&& 0x80 ≠ 0 then ((ad.1 <<< 1) ^^^ poly.zeroExtend 16, ad.2 <<< 1)
  else (ad.1 <<< 1, ad.2 <<< 1)

/-- `repeat n times`. -/
def repeatTimes {α : Type} (f : α → α) : Nat → α → α
  | 0, a => a
  | n + 1, a => repeatTimes f n (f a)

/-- `mutate(acc, b)` (R123) with the feedback constant `poly`: eight iterations, then the low eight bits. -/
def mutate (poly : Byte) (acc : Accum) (b : Byte) : Accum :=
  (repeatTimes (mutateStep poly) 8 (acc.zeroExtend 16, b.zeroExtend 16)).1.truncate 8

end Sys2Proof.Machine
end

