-- ==== Sys2Proof/Syntax.lean ====
section
/-! DEFINITION. The instructions: one constructor per row of spec/opcode_table.json, the twelve host commands
(30_encoding.md R72) and the seven bus request kinds (R82). -/

namespace Sys2Proof

/-- The measurement kind (R74). -/
inductive Kind where
  | temperature
  | humidity
deriving DecidableEq, Repr

/-- The instructions of the engine: the commands a host writes to CMD, and the bus requests it issues (R2). -/
inductive Instr where
  /-- INIT (R141). -/
  | init
  /-- RESET (R142). -/
  | reset
  /-- GET_VALUE `kind` (R178). -/
  | getValue (kind : Kind)
  /-- GET_VALUES (R179). -/
  | getValues
  /-- TSTART (R143). -/
  | tstart
  /-- SEND_BYTE `b` (R144). -/
  | sendByte (b : Byte)
  /-- READ_BYTE (R150): `ack` is `ARG[0]`, whether the engine gives a master acknowledgement. -/
  | readByte (ack : Bool)
  /-- START_MEAS `kind` (R175). -/
  | startMeas (kind : Kind)
  /-- POLL (R176). -/
  | poll
  /-- READ_MEAS (R177). -/
  | readMeas
  /-- CRC_MUTATE `b` (R125). -/
  | crcMutate (b : Byte)
  /-- MIRROR `b` (R126). -/
  | mirror (b : Byte)
  /-- CLK_LOW (R105). -/
  | clkLow
  /-- CLK_HIGH (R106). -/
  | clkHigh
  /-- DAT_LOW (R107). -/
  | datLow
  /-- DAT_HIGH (R108). -/
  | datHigh
  /-- DAT_RELEASE (R109). -/
  | datRelease
  /-- SAMPLE (R110). -/
  | sample
  /-- WAIT `dur` (R111), in microseconds. -/
  | wait (dur : Duration)
deriving DecidableEq, Repr

/-- A bus request (R81, R82): what the engine's operation texts issue through `Bus(K, d)` (R12). -/
inductive Request where
  | clkLow
  | clkHigh
  | datLow
  | datHigh
  | datRelease
  | sample
  | wait (dur : Duration)
deriving DecidableEq, Repr

/-- The row of the opcode table a bus request belongs to. -/
def Request.toInstr : Request → Instr
  | .clkLow => .clkLow
  | .clkHigh => .clkHigh
  | .datLow => .datLow
  | .datHigh => .datHigh
  | .datRelease => .datRelease
  | .sample => .sample
  | .wait d => .wait d

/-- The bus request an instruction is, if it is one (the last seven rows of the table). -/
def Instr.toRequest? : Instr → Option Request
  | .init => none
  | .reset => none
  | .getValue _ => none
  | .getValues => none
  | .tstart => none
  | .sendByte _ => none
  | .readByte _ => none
  | .startMeas _ => none
  | .poll => none
  | .readMeas => none
  | .crcMutate _ => none
  | .mirror _ => none
  | .clkLow => some .clkLow
  | .clkHigh => some .clkHigh
  | .datLow => some .datLow
  | .datHigh => some .datHigh
  | .datRelease => some .datRelease
  | .sample => some .sample
  | .wait d => some (.wait d)

/-- The host commands: the rows that are no bus request (R72). -/
def Instr.isCommand (i : Instr) : Bool := i.toRequest?.isNone

end Sys2Proof
end

