-- ==== Sys2Proof/WellFormed.lean ====
section
/-! DEFINITION. The one check the syntax leaves open: a WAIT's duration (30_encoding.md R82). -/

namespace Sys2Proof

/-- R82: the durations the engine issues are `T_BIT`, `T_POLL` and `T_INIT`, and no others. -/
def legalDuration (p : Params) (d : Duration) : Bool :=
  d == p.tBit || d == p.tPoll || d == p.tInit

/-- A bus request the engine may issue (R82). -/
def Request.wellFormed (p : Params) : Request → Bool
  | .clkLow => true
  | .clkHigh => true
  | .datLow => true
  | .datHigh => true
  | .datRelease => true
  | .sample => true
  | .wait d => legalDuration p d

/-- A well-formed instruction: every command is (its argument's type holds only the values R73 and R74 allow), and a
bus request is where the engine may issue it. -/
def Instr.wellFormed (p : Params) (i : Instr) : Bool :=
  match i.toRequest? with
  | none => true
  | some r => r.wellFormed p

end Sys2Proof
end

