-- ==== Sys2Proof/Decode.lean ====
section
/-! DEFINITION. Decoding and encoding of the command word (30_encoding.md R70 to R79) and of the bus request word
(R81, R82). -/

namespace Sys2Proof

/-- Why a word has no instruction. -/
inductive DecodeError where
  /-- R76: the command word's opcode is reserved. -/
  | reservedOpcode (op : Byte)
  /-- R77: the opcode is assigned and its argument is reserved. -/
  | reservedArgument (op arg : Byte)
  /-- R82: the bus request word's KIND is never issued. -/
  | reservedKind (kind : BitVec 4)
  /-- R82: DUR is not zero on a kind other than WAIT, which is never issued. -/
  | durationNotZero (kind : BitVec 4)
deriving DecidableEq, Repr

/-- `OP`, `w[15:8]` (R71). -/
def opField (w : Word) : Byte := w.extractLsb' 8 8

/-- `ARG`, `w[7:0]` (R71). -/
def argField (w : Word) : Byte := w.extractLsb' 0 8

/-- `KIND`, `q[23:20]` (R81). -/
def kindField (q : ReqWord) : BitVec 4 := q.extractLsb' 20 4

/-- `DUR`, `q[19:0]` (R81). -/
def durField (q : ReqWord) : Duration := q.extractLsb' 0 20

/-- An argument that must be 0x00 (R73). -/
def needZero (op arg : Byte) (i : Instr) : Except DecodeError Instr :=
  if arg = 0x00 then .ok i else .error (.reservedArgument op arg)

/-- An argument that must be at most 0x01: the kind (R74) and READ_BYTE's acknowledgement (R73). -/
def needBit (op arg : Byte) (i0 i1 : Instr) : Except DecodeError Instr :=
  if arg = 0x00 then .ok i0 else if arg = 0x01 then .ok i1 else .error (.reservedArgument op arg)

/-- `Decode(w)` of R79, total on any 16-bit word. -/
def decodeCommand (w : Word) : Except DecodeError Instr :=
  let op := opField w
  let arg := argField w
  if op = 0x01 then needZero op arg .init
  else if op = 0x02 then needZero op arg .reset
  else if op = 0x10 then needBit op arg (.getValue .temperature) (.getValue .humidity)
  else if op = 0x11 then needZero op arg .getValues
  else if op = 0x20 then needZero op arg .tstart
  else if op = 0x21 then .ok (.sendByte arg)
  else if op = 0x22 then needBit op arg (.readByte false) (.readByte true)
  else if op = 0x30 then needBit op arg (.startMeas .temperature) (.startMeas .humidity)
  else if op = 0x31 then needZero op arg .poll
  else if op = 0x32 then needZero op arg .readMeas
  else if op = 0x40 then .ok (.crcMutate arg)
  else if op = 0x41 then .ok (.mirror arg)
  else .error (.reservedOpcode op)

/-- A request kind that carries no duration (R82). -/
def needNoDuration (kind : BitVec 4) (dur : Duration) (r : Request) : Except DecodeError Request :=
  if dur = 0 then .ok r else .error (.durationNotZero kind)

/-- The request a bus request word is, by the table of R82, total on any 24-bit word. A WAIT of any duration decodes;
the durations the engine issues are `Request.wellFormed`'s matter. -/
def decodeRequest (q : ReqWord) : Except DecodeError Request :=
  let kind := kindField q
  let dur := durField q
  if kind = 0x1 then needNoDuration kind dur .clkLow
  else if kind = 0x2 then needNoDuration kind dur .clkHigh
  else if kind = 0x3 then needNoDuration kind dur .datLow
  else if kind = 0x4 then needNoDuration kind dur .datHigh
  else if kind = 0x5 then needNoDuration kind dur .datRelease
  else if kind = 0x6 then needNoDuration kind dur .sample
  else if kind = 0x7 then .ok (.wait dur)
  else .error (.reservedKind kind)

/-- A command word from its two fields (R71). -/
def commandWord (op arg : Byte) : Word := op ++ arg

/-- `KIND` of a bus request (R82). -/
def Request.kind : Request → BitVec 4
  | .clkLow => 0x1
  | .clkHigh => 0x2
  | .datLow => 0x3
  | .datHigh => 0x4
  | .datRelease => 0x5
  | .sample => 0x6
  | .wait _ => 0x7

/-- `DUR` of a bus request: 0 for every kind but WAIT (R81). -/
def Request.dur : Request → Duration
  | .clkLow => 0
  | .clkHigh => 0
  | .datLow => 0
  | .datHigh => 0
  | .datRelease => 0
  | .sample => 0
  | .wait d => d

/-- The 24-bit word of a bus request (R81). -/
def Request.word (r : Request) : ReqWord := r.kind ++ r.dur

/-- `ARG` of a measurement kind (R74). -/
def Kind.arg : Kind → Byte
  | .temperature => 0x00
  | .humidity => 0x01

/-- `ARG` of READ_BYTE (R73). -/
def ackArg (ack : Bool) : Byte := if ack then 0x01 else 0x00

/-- How many bits an instruction's word has: 16 for a command (R70), 24 for a bus request (R81). -/
def Instr.width (i : Instr) : Nat :=
  match i.toRequest? with
  | none => 16
  | some _ => 24

/-- The command word `{OP, ARG}` of a command (R72 to R74); a bus request has none. -/
def Instr.commandWord? : Instr → Option Word
  | .init => some (commandWord 0x01 0x00)
  | .reset => some (commandWord 0x02 0x00)
  | .getValue k => some (commandWord 0x10 k.arg)
  | .getValues => some (commandWord 0x11 0x00)
  | .tstart => some (commandWord 0x20 0x00)
  | .sendByte b => some (commandWord 0x21 b)
  | .readByte a => some (commandWord 0x22 (ackArg a))
  | .startMeas k => some (commandWord 0x30 k.arg)
  | .poll => some (commandWord 0x31 0x00)
  | .readMeas => some (commandWord 0x32 0x00)
  | .crcMutate b => some (commandWord 0x40 b)
  | .mirror b => some (commandWord 0x41 b)
  | .clkLow => none
  | .clkHigh => none
  | .datLow => none
  | .datHigh => none
  | .datRelease => none
  | .sample => none
  | .wait _ => none

/-- The word of an instruction as a number, bit 0 its least significant bit (`Instr.width` bits). -/
def encode (i : Instr) : Nat :=
  match i.commandWord? with
  | some w => w.toNat
  | none =>
    match i.toRequest? with
    | some r => r.word.toNat
    | none => 0

/-- The decoder as the opcode table numbers an instruction's bits: a row of at most 16 bits is a command word, a
wider one a bus request word. Bits above the word's width must be zero. -/
def decodeTableWord (nbits w : Nat) : Option Instr :=
  if nbits ≤ 16 then
    if w < 2 ^ 16 then
      match decodeCommand (BitVec.ofNat 16 w) with
      | .ok i => some i
      | .error _ => none
    else none
  else if w < 2 ^ 24 then
    match decodeRequest (BitVec.ofNat 24 w) with
    | .ok r => some r.toInstr
    | .error _ => none
  else none

end Sys2Proof
end

