-- ==== Sys2Proof/Machine/State.lean ====
section
/-! DEFINITION. The engine's state (10_state.md R21, R27, R37), the events it reads, the reasons a step stops, and the
state after power-on reset (70_reset_and_hazards.md R230, R231). -/

namespace Sys2Proof.Machine

open Sys2Proof

/-- `STATE`, the protocol state (R31). -/
inductive ProtoState where
  /-- No INIT has completed since POR, or the last INIT failed. -/
  | uninitialized
  /-- The electrical idle state is established and the last bus command succeeded. -/
  | idle
  /-- A command is running. -/
  | transmitting
  /-- The last bus command failed; the sensor may be in the middle of a transaction. -/
  | failed
deriving DecidableEq, Repr

/-- `CLK`, the level last driven on the clock pin (R35). -/
inductive ClkLevel where
  | low
  | high
  | unknown
deriving DecidableEq, Repr

/-- `DAT`, how the data pin was last driven (R36). -/
inductive DatLevel where
  | low
  | high
  | released
  | unknown
deriving DecidableEq, Repr

/-- The environment's draw for one bus request (R103): whether it fails, the failure's detail byte, the level a SAMPLE
reads. No law binds it. The response word is made of it by `respond` (Operands.lean). -/
structure Draw where
  fail : Bool
  detail : Byte
  level : Bool
deriving DecidableEq, Repr

/-- One event (R236): a host port operation, a power-on reset, the environment's answer to the outstanding bus request, or
the engine's own going on after it was held. After a plain CMD write or answer the engine goes on at once; after a held one
it stands where it is until `proceed`, so that host operations and a power-on reset may fall there, at any time as R236
says (how this is written is a DESIGN CHOICE, log entry 17). -/
inductive Input where
  /-- `HostWrite(idx, v)` (R51). -/
  | hostWrite (idx : RegIndex) (v : Word)
  /-- `HostWrite(0, w)` (R51), the command it starts held before its first statement. -/
  | hostWriteHeld (w : Word)
  /-- `HostRead(idx)` (R51). -/
  | hostRead (idx : RegIndex)
  /-- Power-on reset (R230). -/
  | por
  /-- The environment answers the outstanding request (R103). -/
  | answer (d : Draw)
  /-- The environment answers the outstanding request (R103), the engine held before it acts on the response. -/
  | answerHeld (d : Draw)
  /-- The engine, held, goes on (R27). -/
  | proceed
deriving DecidableEq, Repr

/-- An issued bus request (R102): its request word (R81), and its response word (R83) if it was answered. -/
structure BusEvent where
  request : ReqWord
  response : Option Word
deriving DecidableEq, Repr

/-- A host read and the value it returned (R237). -/
structure HostRead where
  idx : RegIndex
  value : Word
deriving DecidableEq, Repr

/-- `SEQ` while a command runs (R27, R205), with the operation temporaries that exist only then (R37). -/
structure Seq where
  /-- The admitted command word, held decoded. -/
  cmd : Instr
  /-- The position in the command's operation text, a statement number counted from 0 (log entry 9). -/
  pos : Nat
  /-- `S0`, the state the command started from (R205). -/
  origin : ProtoState
  /-- `r`, the byte ReadByte assembles (R149). -/
  byte : Byte
  /-- `hi` of ReadMeas (R174). -/
  hi : Byte
  /-- `lo` of ReadMeas (R174). -/
  lo : Byte
  /-- `chk` of ReadMeas (R174). -/
  chk : Byte
  /-- `t` of GET_VALUES (R179). -/
  temp : Raw
  /-- The level the last SAMPLE returned, HIGH = true (R14, R41). -/
  level : Bool
  /-- The pending response (R231): the response word of the outstanding request, received and not yet acted on. -/
  reply : Option Word
deriving DecidableEq, Repr

/-- The state of the engine. The last five fields are the model's own (INVENTORY.md, State). -/
structure State where
  /-- `STATE` (R31). -/
  proto : ProtoState
  /-- `ERR` (R32). -/
  err : BitVec 3
  /-- `CRC` (R33). -/
  crc : Accum
  /-- `POLLCNT` (R34). -/
  pollcnt : Byte
  /-- `VALUE` (R25). -/
  value : Word
  /-- `TEMP_RAW` (R26). -/
  tempRaw : Word
  /-- `HUM_RAW` (R26). -/
  humRaw : Word
  /-- `FAULT_INFO` (R30). -/
  faultInfo : Word
  /-- `CLK` (R35). -/
  clk : ClkLevel
  /-- `DAT` (R36). -/
  dat : DatLevel
  /-- `SEQ` (R27): empty while no command runs. -/
  seq : Option Seq
  /-- The bus request presented and not yet answered (R100, R231). -/
  request : Option ReqWord
  /-- The parameters (R6); no step changes them (log entry 1). -/
  params : Params
  /-- The events still to come, in order (log entry 2). -/
  inputs : List Input
  /-- The bus trace (R102) but for the outstanding request: the requests that were answered, and those a power-on reset
  abandoned, newest first (log entries 6 and 20). -/
  trace : List BusEvent
  /-- The values the host's reads returned (R237), newest first (log entry 6). -/
  reads : List HostRead
  /-- How many free register values have been drawn (R39, log entry 5). -/
  draws : Nat
deriving DecidableEq, Repr

/-- Why a step stops with a fault. Both are events or states the spec rules out, and both are SAFE: the model stops. -/
inductive Fault where
  /-- Raised by the step on an environment answer when no request waits for one: none is outstanding, or the one that is
  has its response already, or no command runs to hold it. R100 and R103 make an answer the answer to a request, so the
  spec has no such event. SAFE. DESIGN CHOICE, log entry 8. -/
  | unsolicitedAnswer
  /-- Raised by the step when the outstanding request word is one R82 says is never issued. No state a run reaches
  holds one. SAFE. DESIGN CHOICE, log entry 10. -/
  | reservedRequest
deriving DecidableEq, Repr

/-- Why a step refuses (60_exceptions.md R215): the spec gives the run no meaning from that point. Every one is SAFE. -/
inductive Refusal where
  /-- An instruction the model gives no meaning to yet: no arm of `exec` uses it. -/
  | notModelled (mnemonic : String)
  /-- Raised by the step on a CMD write with a reserved opcode (R76). -/
  | reservedOpcode (op : Byte)
  /-- Raised by the step on a CMD write with a reserved argument (R77). -/
  | reservedArgument (op arg : Byte)
  /-- Raised by a command's meaning when `STATE` does not admit it (R80). -/
  | notAdmitted (proto : ProtoState)
  /-- Raised by the step on a host read of CMD (R23, R40). -/
  | readOfCmd
  /-- Raised by the step on a host write to an index other than 0 (R40). -/
  | writeOfReadOnly (idx : RegIndex)
deriving DecidableEq, Repr

/-- The state right after power-on reset (R230), with nothing in flight (R231) and no event yet to come. The
parameters are at R6's defaults (of the two OPEN ones PRESUMED, log entry 1). -/
def State.reset : State where
  proto := .uninitialized
  err := 0
  crc := 0x00
  pollcnt := 0x00
  value := 0x0000
  tempRaw := 0x0000
  humRaw := 0x0000
  faultInfo := 0x0000
  clk := .unknown
  dat := .unknown
  seq := none
  request := none
  params := Params.default
  inputs := []
  trace := []
  reads := []
  draws := 0

end Sys2Proof.Machine
end

