-- ==== Sys2Proof/Machine/Operands.lean ====
section
/-! DEFINITION. The operand forms: the bus response word (30_encoding.md R83), the kind's command byte (R75), the raw
value's composition (43_measurement.md R181), the host register map (10_state.md R22). -/

namespace Sys2Proof.Machine

open Sys2Proof

/-- A WAIT never fails (R111, R83). -/
def mayFail : Request → Bool
  | .clkLow => true
  | .clkHigh => true
  | .datLow => true
  | .datHigh => true
  | .datRelease => true
  | .sample => true
  | .wait _ => false

/-- Only a SAMPLE's response carries a level (R83). -/
def carriesLevel : Request → Bool
  | .clkLow => false
  | .clkHigh => false
  | .datLow => false
  | .datHigh => false
  | .datRelease => false
  | .sample => true
  | .wait _ => false

/-- A bus response word (R83): `{DETAIL[15:8], 0b000000, FAIL[1], LEVEL[0]}`. -/
def responseWord (detail : Byte) (fail level : Bool) : Word :=
  detail ++ (0 : BitVec 6) ++ BitVec.ofBool fail ++ BitVec.ofBool level

/-- The response word (R83) the environment's draw gives a request. FAIL is 0 for a WAIT, LEVEL is 0 for every kind but
SAMPLE, DETAIL is 0 unless FAIL is 1 (DEDUCED, log entry 3). -/
def respond (r : Request) (d : Draw) : Word :=
  responseWord (if d.fail && mayFail r then d.detail else 0) (d.fail && mayFail r) (d.level && carriesLevel r)

/-- `p[0]`, the sampled level, HIGH = true (R83, R14). -/
def responseLevel (p : Word) : Bool := p.getLsbD 0

/-- `p[1]`, whether the pin operation failed (R83). -/
def responseFail (p : Word) : Bool := p.getLsbD 1

/-- `p[15:8]`, the driver's failure detail (R83). -/
def responseDetail (p : Word) : Byte := p.extractLsb' 8 8

/-- `commandByteFor(kind)` (R75, R171). -/
def commandByteFor (p : Params) : Kind → Byte
  | .temperature => p.cmdTemp
  | .humidity => p.cmdHum

/-- `zext_16(b)`. -/
def zext16 (b : Byte) : Word := b.zeroExtend 16

/-- The composed raw value `(zext_16(hi) << 8) + zext_16(lo)` (R174, R181). -/
def composeRaw (hi lo : Byte) : Raw := (zext16 hi <<< 8) + zext16 lo

/-- The bit indices of a byte, most significant first (R53): `for i in 7 downto 0`. -/
def bitsDown : List Nat := [7, 6, 5, 4, 3, 2, 1, 0]

/-- The eight host registers (R22). -/
inductive HostReg where
  | cmd
  | status
  | value
  | tempRaw
  | humRaw
  | crc
  | pollcnt
  | faultInfo
deriving DecidableEq, Repr

/-- The register an index names (R22); the 3-bit index has no reserved values (R40). -/
def hostReg (idx : RegIndex) : HostReg :=
  if idx = 0 then .cmd
  else if idx = 1 then .status
  else if idx = 2 then .value
  else if idx = 3 then .tempRaw
  else if idx = 4 then .humRaw
  else if idx = 5 then .crc
  else if idx = 6 then .pollcnt
  else .faultInfo

/-- The index of a register (R22). -/
def HostReg.index : HostReg → RegIndex
  | .cmd => 0
  | .status => 1
  | .value => 2
  | .tempRaw => 3
  | .humRaw => 4
  | .crc => 5
  | .pollcnt => 6
  | .faultInfo => 7

end Sys2Proof.Machine
end

