-- ==== Sys2Proof/Machine/Flags.lean ====
section
/-! DEFINITION. The status fields: STATE and its transitions (10_state.md R24, R31), admission (30_encoding.md R80),
ERR and FAULT_INFO of each failure kind (60_exceptions.md R200, R209). -/

namespace Sys2Proof.Machine

open Sys2Proof

/-- The number of a protocol state, STATUS[1:0] (R21, R24). -/
def ProtoState.code : ProtoState → BitVec 2
  | .uninitialized => 0
  | .idle => 1
  | .transmitting => 2
  | .failed => 3

/-- STATUS, `zext_16({ERR, STATE})` (R24). -/
def statusWord (err : BitVec 3) (proto : ProtoState) : Word := (0 : BitVec 11) ++ err ++ proto.code

/-- The four failure kinds with the information each records (R200). -/
inductive Failure where
  /-- A bus request answered FAIL (R201). -/
  | pinOperation (kind : BitVec 4) (detail : Byte)
  /-- SendByte's acknowledgement sample was HIGH (R202). -/
  | protocolNack (v : Byte)
  /-- The poll counter reached 0 (R203). -/
  | measurementTimeout
  /-- The accumulator is not the mirrored checksum (R204). -/
  | checksumMismatch (crc : Accum) (chk : Byte)
deriving DecidableEq, Repr

/-- The code of a failure kind in `ERR` (R200). -/
def Failure.code : Failure → BitVec 3
  | .pinOperation _ _ => 1
  | .protocolNack _ => 2
  | .measurementTimeout => 3
  | .checksumMismatch _ _ => 4

/-- FAULT_INFO of a failure (R209). -/
def Failure.info : Failure → Word
  | .pinOperation kind detail => (kind.zeroExtend 16 <<< 12) ||| zext16 detail
  | .protocolNack v => zext16 v
  | .measurementTimeout => 0x0000
  | .checksumMismatch crc chk => (zext16 crc <<< 8) ||| zext16 chk

/-- A bus command other than INIT and RESET: admitted in IDLE only (R80). -/
def admitsBus : ProtoState → Bool
  | .uninitialized => false
  | .idle => true
  | .transmitting => false
  | .failed => false

/-- A command that touches no pin: admitted unless a command runs (R80). -/
def admitsCrc : ProtoState → Bool
  | .uninitialized => true
  | .idle => true
  | .transmitting => false
  | .failed => true

/-- The admission table of R80, row INIT. -/
def admitsInit : ProtoState → Bool
  | .uninitialized => true
  | .idle => true
  | .transmitting => false
  | .failed => true

/-- The admission table of R80, row RESET. -/
def admitsReset : ProtoState → Bool
  | .uninitialized => false
  | .idle => true
  | .transmitting => false
  | .failed => true

/-- The admission table of R80. A bus request is no command and no CMD write submits one. -/
def admits : Instr → ProtoState → Bool
  | .init, p => admitsInit p
  | .reset, p => admitsReset p
  | .getValue _, p => admitsBus p
  | .getValues, p => admitsBus p
  | .tstart, p => admitsBus p
  | .sendByte _, p => admitsBus p
  | .readByte _, p => admitsBus p
  | .startMeas _, p => admitsBus p
  | .poll, p => admitsBus p
  | .readMeas, p => admitsBus p
  | .crcMutate _, p => admitsCrc p
  | .mirror _, p => admitsCrc p
  | .clkLow, _ => false
  | .clkHigh, _ => false
  | .datLow, _ => false
  | .datHigh, _ => false
  | .datRelease, _ => false
  | .sample, _ => false
  | .wait _, _ => false

/-- `STATE` after a successful INIT: FAILED if it started in FAILED, else IDLE (R31). -/
def initDone : ProtoState → ProtoState
  | .uninitialized => .idle
  | .idle => .idle
  | .transmitting => .idle
  | .failed => .failed

/-- `STATE` after a command that started from `origin` succeeds (R31, R207). -/
def successState (cmd : Instr) (origin : ProtoState) : ProtoState :=
  match cmd with
  | .init => initDone origin
  | .reset => .idle
  | .getValue _ => .idle
  | .getValues => .idle
  | .tstart => .idle
  | .sendByte _ => .idle
  | .readByte _ => .idle
  | .startMeas _ => .idle
  | .poll => .idle
  | .readMeas => .idle
  | .crcMutate _ => origin
  | .mirror _ => origin
  | .clkLow => .idle
  | .clkHigh => .idle
  | .datLow => .idle
  | .datHigh => .idle
  | .datRelease => .idle
  | .sample => .idle
  | .wait _ => .idle

/-- `STATE` after a command fails: UNINITIALIZED for INIT, FAILED for every other (R31, R208). -/
def failureState (cmd : Option Instr) : ProtoState :=
  if cmd = some .init then .uninitialized else .failed

end Sys2Proof.Machine
end

