-- ==== Sys2Proof/Machine/Text.lean ====
section
/-! DEFINITION. The operation texts: the pseudocode of 41_crc.md, 42_protocol.md and 43_measurement.md as lists of
statements, loops over the bits of a byte and over the reset pulses written out. They are fixed (20_memory.md R67), for
given parameters (R6).
DESIGN CHOICE, log entry 9: how the statements are numbered. -/

namespace Sys2Proof.Machine

open Sys2Proof

/-- The statements of the operation texts. -/
inductive Stmt where
  /-- `Bus(K, d)` (R101). -/
  | bus (r : Request)
  /-- `Bus(K, d)` inside TStart, whose `on failure` statement is `CRC <- 0x00` (R145). -/
  | handshake (r : Request)
  /-- TStart's `on completion: CRC <- 0x00` (R145). -/
  | clearCrc
  /-- `if ack != 0: raise ProtocolNack(v)` on the level just sampled (R146, R148). -/
  | checkAck (v : Byte)
  /-- `CRC <- mutate(CRC, v)` (R146, R125). -/
  | foldCrc (v : Byte)
  /-- `POLLCNT <- POLL_LIMIT` (R173). -/
  | loadPoll
  /-- The end of Poll's loop body: on the level just sampled, return if it is LOW; else decrement POLLCNT, raise
  MeasurementTimeout if it is 0, and go back to the body's `wait(T_POLL)`, two statements before this one (R173). -/
  | pollTest
  /-- `r := 0x00` (R149). -/
  | clearByte
  /-- `if sample() = 1: r := r OR (1 << i)` on the level just sampled (R149). -/
  | orBit (i : Nat)
  /-- `hi := r; CRC <- mutate(CRC, hi)` (R174). -/
  | takeHi
  /-- `lo := r; CRC <- mutate(CRC, lo)` (R174). -/
  | takeLo
  /-- `chk := r` (R174). -/
  | takeChk
  /-- `if CRC != mirror(chk): raise ChecksumMismatch(CRC, chk)` (R174, R127). -/
  | compareCrc
  /-- `t := ` the raw value just read (R179). -/
  | takeTemp
deriving DecidableEq, Repr

/-- The bus request a statement issues, if it issues one. -/
def Stmt.request? : Stmt → Option Request
  | .bus r => some r
  | .handshake r => some r
  | .clearCrc => none
  | .checkAck _ => none
  | .foldCrc _ => none
  | .loadPoll => none
  | .pollTest => none
  | .clearByte => none
  | .orBit _ => none
  | .takeHi => none
  | .takeLo => none
  | .takeChk => none
  | .compareCrc => none
  | .takeTemp => none

/-- A line action or sample followed by `wait(T_BIT)`. -/
def thenWait (p : Params) (r : Request) : List Stmt := [.bus r, .bus (.wait p.tBit)]

/-- A step of the handshake followed by `wait(T_BIT)`. -/
def handshakeWait (p : Params) (r : Request) : List Stmt := [.handshake r, .handshake (.wait p.tBit)]

/-- `TStart()` (R145). -/
def tStartText (p : Params) : List Stmt :=
  handshakeWait p .clkHigh ++ handshakeWait p .datLow ++ handshakeWait p .clkLow ++ handshakeWait p .clkHigh ++
    handshakeWait p .datHigh ++ handshakeWait p .clkLow ++ [.clearCrc]

/-- The line action that presents a data bit (R146, R147). -/
def dataRequest (b : Bool) : Request := if b then .datHigh else .datLow

/-- One bit of SendByte: clock low, wait; drive the bit, wait; clock high, wait (R146). -/
def sendBitText (p : Params) (v : Byte) (i : Nat) : List Stmt :=
  thenWait p .clkLow ++ thenWait p (dataRequest (v.getLsbD i)) ++ thenWait p .clkHigh

/-- `SendByte(v)` (R146). -/
def sendByteText (p : Params) (v : Byte) : List Stmt :=
  bitsDown.flatMap (sendBitText p v) ++ thenWait p .clkLow ++ thenWait p .datRelease ++ thenWait p .clkHigh ++
    [.bus .sample, .checkAck v, .foldCrc v] ++ thenWait p .clkLow

/-- One bit of ReadByte: clock high, wait; sample; clock low, wait (R149). -/
def readBitText (p : Params) (i : Nat) : List Stmt := thenWait p .clkHigh ++ [.bus .sample, .orBit i] ++ thenWait p .clkLow

/-- ReadByte's ninth clock pulse (R149). -/
def ninthPulse (p : Params) : List Stmt := thenWait p .clkHigh ++ thenWait p .clkLow

/-- `ReadByte(sendAck)` (R149). -/
def readByteText (p : Params) (ack : Bool) : List Stmt :=
  [.clearByte] ++ bitsDown.flatMap (readBitText p) ++ (if ack then thenWait p .datLow else []) ++ ninthPulse p ++
    (if ack then thenWait p .datRelease else [])

/-- `Init()` (R141): one long wait, then the two pins driven low, with no wait after them (D9). -/
def initText (p : Params) : List Stmt := [.bus (.wait p.tInit), .bus .clkLow, .bus .datLow]

/-- One clock pulse of the bus reset (R142). -/
def resetPulse (p : Params) : List Stmt := thenWait p .clkHigh ++ thenWait p .clkLow

/-- `Reset()` (R142). -/
def resetText (p : Params) : List Stmt :=
  [.bus .datHigh] ++ (List.replicate p.resetToggles (resetPulse p)).flatten ++ tStartText p ++
    sendByteText p p.cmdReset

/-- `StartMeas(kind)` (R172). -/
def startMeasText (p : Params) (k : Kind) : List Stmt := tStartText p ++ sendByteText p (commandByteFor p k)

/-- `Poll()` (R173). -/
def pollText (p : Params) : List Stmt := [.loadPoll, .bus (.wait p.tPoll), .bus .sample, .pollTest]

/-- `ReadMeas()` (R174). -/
def readMeasText (p : Params) : List Stmt :=
  readByteText p true ++ [.takeHi] ++ readByteText p true ++ [.takeLo] ++ readByteText p false ++ [.takeChk, .compareCrc]

/-- `GetValue(kind)` (R178). -/
def getValueText (p : Params) (k : Kind) : List Stmt := startMeasText p k ++ pollText p ++ readMeasText p

/-- GET_VALUES (R179): TEMPERATURE, then HUMIDITY. -/
def getValuesText (p : Params) : List Stmt := getValueText p .temperature ++ [.takeTemp] ++ getValueText p .humidity

/-- CRC_MUTATE (R125). -/
def crcMutateText (b : Byte) : List Stmt := [.foldCrc b]

/-- MIRROR (R126): its only effect is the result written at completion. -/
def mirrorText : List Stmt := []

/-- The operation text a command runs (R72). A bus request is no command and has none. -/
def textOf (p : Params) : Instr → List Stmt
  | .init => initText p
  | .reset => resetText p
  | .getValue k => getValueText p k
  | .getValues => getValuesText p
  | .tstart => tStartText p
  | .sendByte b => sendByteText p b
  | .readByte a => readByteText p a
  | .startMeas k => startMeasText p k
  | .poll => pollText p
  | .readMeas => readMeasText p
  | .crcMutate b => crcMutateText b
  | .mirror _ => mirrorText
  | .clkLow => []
  | .clkHigh => []
  | .datLow => []
  | .datHigh => []
  | .datRelease => []
  | .sample => []
  | .wait _ => []

/-- What is left of the text at the sequencer's position (R27). -/
def seqRest (p : Params) (q : Seq) : List Stmt := (textOf p q.cmd).drop q.pos

/-- The statement at the sequencer's position. -/
def seqStmt (p : Params) (q : Seq) : Option Stmt := (seqRest p q).head?

end Sys2Proof.Machine
end

