-- ==== Sys2Proof/Machine/Ops.lean ====
section
/-! DEFINITION. The shared operations: answering a bus request (40_bus_primitives.md R101, R104), raising a failure
(60_exceptions.md R206, R208), completing (R207), the sequencer (10_state.md R27), starting a command (R205), the host
port (R22, R39, R40) and power-on reset (R230). -/

namespace Sys2Proof.Machine

open Sys2Proof

/-! ### The sequencer's position and temporaries -/

/-- The sequencer at the next statement (R27). -/
def seqNext (q : Seq) : Seq := { q with pos := q.pos + 1 }

/-- The sequencer back at the poll loop's `wait(T_POLL)` (R173). -/
def seqLoop (q : Seq) : Seq := { q with pos := q.pos - 2 }

/-- `if sample() = 1: r := r OR (1 << i)` (R149). -/
def seqOrBit (i : Nat) (q : Seq) : Seq :=
  { q with byte := if q.level then q.byte ||| ((1 : Byte) <<< i) else q.byte }

/-- A command at its first statement, with no temporary written yet (R205; the temporaries' zeros are never read,
DESIGN CHOICE, log entry 18). -/
def seqStart (cmd : Instr) (origin : ProtoState) : Seq where
  cmd := cmd
  pos := 0
  origin := origin
  byte := 0
  hi := 0
  lo := 0
  chk := 0
  temp := 0
  level := false
  reply := none

/-! ### Failure: the one way a command is ended early -/

/-- Whether the running command is inside TStart, the one operation with an `on failure` statement (R145, R206). -/
def inHandshake (s : State) : Bool :=
  match s.seq with
  | none => false
  | some q =>
    match seqStmt s.params q with
    | some (.handshake _) => true
    | _ => false

/-- `raise E(info)` (R206) and completion on failure (R208): TStart's `CRC <- 0x00` if the failure is inside it, then
ERR, FAULT_INFO and STATE, with SEQ empty and nothing in flight. The result registers are not written. -/
def raise (e : Failure) (s : State) : State :=
  { s with
    crc := if inHandshake s then 0x00 else s.crc
    err := e.code
    faultInfo := e.info
    proto := failureState (s.seq.map Seq.cmd)
    seq := none
    request := none }

/-! ### The bus -/

/-- The effect of an answered request on the line records (R105 to R111), and the level a SAMPLE returns to the running
command (R110). -/
def lineDone (r : Request) (level : Bool) (s : State) : State :=
  match r with
  | .clkLow => { s with clk := .low }
  | .clkHigh => { s with clk := .high }
  | .datLow => { s with dat := .low }
  | .datHigh => { s with dat := .high }
  | .datRelease => { s with dat := .released }
  | .sample => { s with seq := s.seq.map fun q => { q with level := level } }
  | .wait _ => s

/-- The line record of a failed request (R104). -/
def lineFailed (r : Request) (s : State) : State :=
  match r with
  | .clkLow => { s with clk := .unknown }
  | .clkHigh => { s with clk := .unknown }
  | .datLow => { s with dat := .unknown }
  | .datHigh => { s with dat := .unknown }
  | .datRelease => { s with dat := .unknown }
  | .sample => s
  | .wait _ => s

/-- The request is answered: it is no longer outstanding, and the trace gains it with its response (R100, R102). -/
def recordEvent (r : Request) (p : Word) (s : State) : State :=
  { s with request := none, trace := { request := r.word, response := some p } :: s.trace }

/-- `Bus(K, d)` once the environment's response is `p` (R101). -/
def takeResponse (r : Request) (p : Word) (s : State) : State :=
  let s1 := recordEvent r p s
  if responseFail p then raise (.pinOperation r.kind (responseDetail p)) (lineFailed r s1)
  else lineDone r (responseLevel p) s1

/-- `Bus(K, d)` once the environment has answered with the draw `d` (R101, R103). -/
def answerRequest (r : Request) (d : Draw) (s : State) : State := takeResponse r (respond r d) s

/-- The request is presented to the line interface and not yet answered (R100). -/
def present (r : Request) (s : State) : State := { s with request := some r.word }

/-- `Bus(K, d)` (R101): with an answer at the head of the events, the request is issued and answered; with none, it is
issued and the engine waits, for ever if need be (R113). -/
def busRequest (r : Request) (s : State) : Host.Outcome State Fault Refusal :=
  match s.inputs with
  | .answer d :: ins => .next (answerRequest r d { s with inputs := ins })
  | _ => .next (present r s)

/-! ### Completion and the sequencer -/

/-- The result registers a command writes when it succeeds (R207, R25, R26). -/
def writeResults (q : Seq) (s : State) : State :=
  match q.cmd with
  | .init => s
  | .reset => s
  | .getValue _ => { s with value := composeRaw q.hi q.lo }
  | .getValues => { s with tempRaw := q.temp, humRaw := composeRaw q.hi q.lo }
  | .tstart => s
  | .sendByte _ => s
  | .readByte _ => { s with value := zext16 q.byte }
  | .startMeas _ => s
  | .poll => s
  | .readMeas => { s with value := composeRaw q.hi q.lo }
  | .crcMutate _ => s
  | .mirror b => { s with value := zext16 (mirror b) }
  | .clkLow => s
  | .clkHigh => s
  | .datLow => s
  | .datHigh => s
  | .datRelease => s
  | .sample => s
  | .wait _ => s

/-- Completion on success (R207): the results, ERR, FAULT_INFO and STATE in one step, and SEQ empty. -/
def complete (q : Seq) (s : State) : State :=
  { writeResults q s with
    err := 0
    faultInfo := 0x0000
    proto := successState q.cmd q.origin
    seq := none
    request := none }

/-- The engine waits at a statement that issues the request `r` (R100). -/
def awaitAnswer (r : Request) (q : Seq) (s : State) : State := present r { s with seq := some q }

/-- Run the statements that issue no request, from the position of `q`, whose remaining text is the list, up to the next
request, the end of the text or a failure (R27, R206, R207). -/
def advance : List Stmt → Seq → State → State
  | [], q, s => complete q s
  | .bus r :: _, q, s => awaitAnswer r q s
  | .handshake r :: _, q, s => awaitAnswer r q s
  | .clearCrc :: rest, q, s => advance rest (seqNext q) { s with crc := 0x00 }
  | .checkAck v :: rest, q, s =>
    if q.level then raise (.protocolNack v) { s with seq := some q } else advance rest (seqNext q) s
  | .foldCrc v :: rest, q, s => advance rest (seqNext q) { s with crc := mutate s.params.poly s.crc v }
  | .loadPoll :: rest, q, s => advance rest (seqNext q) { s with pollcnt := s.params.pollLimit }
  | .pollTest :: rest, q, s =>
    if q.level then
      if s.pollcnt - 1 = 0 then raise .measurementTimeout { s with pollcnt := s.pollcnt - 1, seq := some q }
      else awaitAnswer (.wait s.params.tPoll) (seqLoop q) { s with pollcnt := s.pollcnt - 1 }
    else advance rest (seqNext q) s
  | .clearByte :: rest, q, s => advance rest (seqNext { q with byte := 0x00 }) s
  | .orBit i :: rest, q, s => advance rest (seqNext (seqOrBit i q)) s
  | .takeHi :: rest, q, s => advance rest (seqNext { q with hi := q.byte })
    { s with crc := mutate s.params.poly s.crc q.byte }
  | .takeLo :: rest, q, s => advance rest (seqNext { q with lo := q.byte })
    { s with crc := mutate s.params.poly s.crc q.byte }
  | .takeChk :: rest, q, s => advance rest (seqNext { q with chk := q.byte }) s
  | .compareCrc :: rest, q, s =>
    if s.crc ≠ mirror q.chk then raise (.checksumMismatch s.crc q.chk) { s with seq := some q }
    else advance rest (seqNext q) s
  | .takeTemp :: rest, q, s => advance rest (seqNext { q with temp := composeRaw q.hi q.lo }) s

/-- The running command goes on with `q`. -/
def advanceFrom (q : Seq) (s : State) : State := advance (seqRest s.params q) q s

/-- After a request of the running command has been answered: go on with the statement after it (R27). If the answer
was a failure, no command runs any more and nothing is left to do. -/
def resume (s : State) : State :=
  match s.seq with
  | none => s
  | some q => advanceFrom (seqNext q) s

/-- Take the answers at the head of the events one by one, each for the request outstanding then, until an event that is
no plain answer, the end of the events, or a state with no request outstanding (R62, R113). -/
def drain : List Input → State → State
  | [], s => { s with inputs := [] }
  | .answer d :: ins, s =>
    match s.request with
    | none => { s with inputs := .answer d :: ins }
    | some w =>
      match decodeRequest w with
      | .ok r => drain ins (resume (answerRequest r d s))
      | .error _ => { s with inputs := .answer d :: ins }
  | .hostWrite i v :: ins, s => { s with inputs := .hostWrite i v :: ins }
  | .hostRead i :: ins, s => { s with inputs := .hostRead i :: ins }
  | .hostWriteHeld w :: ins, s => { s with inputs := .hostWriteHeld w :: ins }
  | .por :: ins, s => { s with inputs := .por :: ins }
  | .answerHeld d :: ins, s => { s with inputs := .answerHeld d :: ins }
  | .proceed :: ins, s => { s with inputs := .proceed :: ins }

/-- The running command goes on for as long as answers are there. -/
def runOn (s : State) : State := drain s.inputs s

/-- Command start (R205): S0 recorded, STATE and SEQ written, nothing in flight; no other register changes. -/
def beginCommand (cmd : Instr) (s : State) : State :=
  { s with
    proto := .transmitting
    seq := some (seqStart cmd s.proto)
    request := none }

/-- A command started, its operation text begun (R205). -/
def startCommand (cmd : Instr) (s : State) : State := advanceFrom (seqStart cmd s.proto) (beginCommand cmd s)

/-- A decoded command (R80, R205), held before its first statement. -/
def holdCommand (cmd : Instr) (s : State) : Host.Outcome State Fault Refusal :=
  if admits cmd s.proto then .next (beginCommand cmd s) else .refused (.notAdmitted s.proto)

/-- The pending response (R231), if there is one. -/
def pendingReply (s : State) : Option Word := s.seq.bind Seq.reply

/-- The engine, held, goes on (R27): a command not yet begun begins its text, a command whose request has its response acts
on it. With nothing held nothing happens: no command runs, or it waits for an answer. -/
def proceed (s : State) : State :=
  match s.seq with
  | none => s
  | some q =>
    match s.request with
    | none => runOn (advanceFrom q s)
    | some w =>
      match q.reply, decodeRequest w with
      | some p, .ok r => runOn (resume (takeResponse r p { s with seq := some { q with reply := none } }))
      | _, _ => s

/-- A decoded command (R80, R205): refused where STATE does not admit it; else started, and run for as long as the
environment's answers are there, to its completion (R207, R208) if they are all there. -/
def runCommand (cmd : Instr) (s : State) : Host.Outcome State Fault Refusal :=
  if admits cmd s.proto then .next (runOn (startCommand cmd s)) else .refused (.notAdmitted s.proto)

/-! ### The host port -/

/-- What a register holds (R22, R24, R28, R29). CMD has no storage: its read is refused before this is asked. -/
def registerValue (s : State) : HostReg → Word
  | .cmd => 0x0000
  | .status => statusWord s.err s.proto
  | .value => s.value
  | .tempRaw => s.tempRaw
  | .humRaw => s.humRaw
  | .crc => zext16 s.crc
  | .pollcnt => zext16 s.pollcnt
  | .faultInfo => s.faultInfo

/-- The host's record of a read. -/
def recordRead (idx : RegIndex) (v : Word) (s : State) : State := { s with reads := { idx := idx, value := v } :: s.reads }

/-- Whether a read returns a free value: any register but STATUS while a command runs (R39). -/
def readIsFree (s : State) (r : HostReg) : Bool := s.proto == .transmitting && r != .status

/-- `HostRead(idx)` (R22, R39, R40). -/
def hostRead (idx : RegIndex) (s : State) : Host.Outcome State Fault Refusal :=
  if hostReg idx = .cmd then .refused .readOfCmd
  else if readIsFree s (hostReg idx) then
    .next (recordRead idx (Config.freeRead s.draws) { s with draws := s.draws + 1 })
  else .next (recordRead idx (registerValue s (hostReg idx)) s)

/-- The outstanding request as an event of the run (R102): issued, with its response if the engine has received one. -/
def outstandingEvent (s : State) : List BusEvent :=
  s.request.toList.map fun w => { request := w, response := pendingReply s }

/-- The bus trace (R102): every request issued so far, in issue order, with its response if it was answered. -/
def busTrace (s : State) : List BusEvent := (outstandingEvent s ++ s.trace).reverse

/-- Power-on reset (R230, R231): the state of `State.reset`, whatever it was before. The events still to come, what was
observed so far and the parameters stay (DESIGN CHOICE, log entry 13). The outstanding request is no longer outstanding,
and stays in the trace, with no response if it was not answered (DEDUCED from R102 and R236, log entry 20). -/
def powerOnReset (s : State) : State :=
  { State.reset with
    params := s.params
    inputs := s.inputs
    trace := outstandingEvent s ++ s.trace
    reads := s.reads
    draws := s.draws }

end Sys2Proof.Machine
end

