-- ==== Sys2Proof/Machine/Bus.lean ====
section
/-! DEFINITION. The seven bus request kinds (40_bus_primitives.md R105 to R111), each `Bus(K, d)` of R101. -/

namespace Sys2Proof.Machine

open Sys2Proof

/-- CLK_LOW (R105): `CLK <- LOW`; on failure UNKNOWN (R104). -/
def execClkLow (s : State) : Host.Outcome State Fault Refusal :=
  busRequest .clkLow s

/-- CLK_HIGH (R106): `CLK <- HIGH`; on failure UNKNOWN (R104). -/
def execClkHigh (s : State) : Host.Outcome State Fault Refusal :=
  busRequest .clkHigh s

/-- DAT_LOW (R107): `DAT <- LOW`, whatever it was; on failure UNKNOWN (R104). -/
def execDatLow (s : State) : Host.Outcome State Fault Refusal :=
  busRequest .datLow s

/-- DAT_HIGH (R108): `DAT <- HIGH`; on failure UNKNOWN (R104). -/
def execDatHigh (s : State) : Host.Outcome State Fault Refusal :=
  busRequest .datHigh s

/-- DAT_RELEASE (R109): `DAT <- RELEASED`; on failure UNKNOWN (R104). -/
def execDatRelease (s : State) : Host.Outcome State Fault Refusal :=
  busRequest .datRelease s

/-- SAMPLE (R110): the drawn level goes to the running command; neither line record changes, on failure either. -/
def execSample (s : State) : Host.Outcome State Fault Refusal :=
  busRequest .sample s

/-- WAIT `d` (R111): never fails; the duration is data in the trace (R243). -/
def execWait (d : Duration) (s : State) : Host.Outcome State Fault Refusal :=
  busRequest (.wait d) s

end Sys2Proof.Machine
end

