-- ==== Sys2Proof/Machine/CrcCommands.lean ====
section
/-! DEFINITION. The commands CRC_MUTATE and MIRROR (41_crc.md R125, R126): no bus request; STATE returns to where it was. -/

namespace Sys2Proof.Machine

open Sys2Proof

/-- CRC_MUTATE `b` (R125): `CRC <- mutate(CRC, b)`. -/
def execCrcMutate (b : Byte) (s : State) : Host.Outcome State Fault Refusal :=
  runCommand (.crcMutate b) s

/-- MIRROR `b` (R126): `VALUE <- zext_16(mirror(b))`. -/
def execMirror (b : Byte) (s : State) : Host.Outcome State Fault Refusal :=
  runCommand (.mirror b) s

end Sys2Proof.Machine
end

