-- ==== Sys2Proof/Machine/Framing.lean ====
section
/-! DEFINITION. The framing commands TSTART, SEND_BYTE and READ_BYTE (42_protocol.md R143, R144, R150): their texts are
`tStartText`, `sendByteText` and `readByteText`. -/

namespace Sys2Proof.Machine

open Sys2Proof

/-- TSTART (R143): the transmission-start handshake; CRC cleared on completion and on failure (R145). -/
def execTstart (s : State) : Host.Outcome State Fault Refusal :=
  runCommand .tstart s

/-- SEND_BYTE `b` (R144): eight bits and the acknowledgement; CRC folded only when acknowledged (R148). -/
def execSendByte (b : Byte) (s : State) : Host.Outcome State Fault Refusal :=
  runCommand (.sendByte b) s

/-- READ_BYTE (R150): VALUE takes the byte on success; CRC is neither read nor written (R149). -/
def execReadByte (ack : Bool) (s : State) : Host.Outcome State Fault Refusal :=
  runCommand (.readByte ack) s

end Sys2Proof.Machine
end

