-- ==== Sys2Proof/Machine/Lifecycle.lean ====
section
/-! DEFINITION. The lifecycle commands INIT and RESET (42_protocol.md R141, R142): their texts are `initText` and `resetText`. -/

namespace Sys2Proof.Machine

open Sys2Proof

/-- INIT (R141): admitted unless a command runs; leaves IDLE, or FAILED if it started there; a failure leaves
UNINITIALIZED (R31). -/
def execInit (s : State) : Host.Outcome State Fault Refusal :=
  runCommand .init s

/-- RESET (R142): the sensor reset over the bus, the return from a failure (R213); admitted in IDLE and FAILED. -/
def execReset (s : State) : Host.Outcome State Fault Refusal :=
  runCommand .reset s

end Sys2Proof.Machine
end

