-- ==== Sys2Proof/Machine/Measurement.lean ====
section
/-! DEFINITION. The measurement commands START_MEAS, POLL, READ_MEAS, GET_VALUE and GET_VALUES (43_measurement.md R175 to
R179): their texts are `startMeasText`, `pollText`, `readMeasText`, `getValueText` and `getValuesText`. -/

namespace Sys2Proof.Machine

open Sys2Proof

/-- START_MEAS `kind` (R175, R172). -/
def execStartMeas (k : Kind) (s : State) : Host.Outcome State Fault Refusal :=
  runCommand (.startMeas k) s

/-- POLL (R176, R173, R180). -/
def execPoll (s : State) : Host.Outcome State Fault Refusal :=
  runCommand .poll s

/-- READ_MEAS (R177, R174): VALUE takes the raw value when the checksum agrees. -/
def execReadMeas (s : State) : Host.Outcome State Fault Refusal :=
  runCommand .readMeas s

/-- GET_VALUE `kind` (R178): StartMeas, Poll, ReadMeas; VALUE on success. -/
def execGetValue (k : Kind) (s : State) : Host.Outcome State Fault Refusal :=
  runCommand (.getValue k) s

/-- GET_VALUES (R179): TEMPERATURE then HUMIDITY; TEMP_RAW and HUM_RAW together on success. -/
def execGetValues (s : State) : Host.Outcome State Fault Refusal :=
  runCommand .getValues s

end Sys2Proof.Machine
end

