-- ==== Sys2Proof/Machine/Dispatch.lean ====
section
/-! DEFINITION. One arm per instruction: the twelve commands of 30_encoding.md R72, the seven bus requests of R82. -/

namespace Sys2Proof.Machine

open Sys2Proof

/-- What an instruction does in a state. -/
def exec (i : Instr) (s : State) : Host.Outcome State Fault Refusal :=
  match i with
  | .init => Sys2Proof.Machine.execInit s
  | .reset => Sys2Proof.Machine.execReset s
  | .getValue k => Sys2Proof.Machine.execGetValue k s
  | .getValues => Sys2Proof.Machine.execGetValues s
  | .tstart => Sys2Proof.Machine.execTstart s
  | .sendByte b => Sys2Proof.Machine.execSendByte b s
  | .readByte a => Sys2Proof.Machine.execReadByte a s
  | .startMeas k => Sys2Proof.Machine.execStartMeas k s
  | .poll => Sys2Proof.Machine.execPoll s
  | .readMeas => Sys2Proof.Machine.execReadMeas s
  | .crcMutate b => Sys2Proof.Machine.execCrcMutate b s
  | .mirror b => Sys2Proof.Machine.execMirror b s
  | .clkLow => Sys2Proof.Machine.execClkLow s
  | .clkHigh => Sys2Proof.Machine.execClkHigh s
  | .datLow => Sys2Proof.Machine.execDatLow s
  | .datHigh => Sys2Proof.Machine.execDatHigh s
  | .datRelease => Sys2Proof.Machine.execDatRelease s
  | .sample => Sys2Proof.Machine.execSample s
  | .wait d => Sys2Proof.Machine.execWait d s

end Sys2Proof.Machine
end

