-- ==== Sys2Proof/Machine/Fetch.lean ====
section
/-! DEFINITION. What the next event asks of the engine (70_reset_and_hazards.md R236), and how a word is placed where
the step fetches its instruction. -/

namespace Sys2Proof.Machine

open Sys2Proof

/-- What a step does with the event at the head of the events. -/
inductive Fetched where
  /-- A CMD write decoded to a command: run it in this state, the event taken. -/
  | command (i : Instr) (s : State)
  /-- The outstanding request is answered: run its row of the table, then let the running command go on. -/
  | request (i : Instr)
  /-- No instruction: the outcome is known. -/
  | done (o : Host.Outcome State Fault Refusal)

/-- The refusal a reserved command word is (R76, R77). The last two are no errors of a command word. -/
def refusalOf : DecodeError → Refusal
  | .reservedOpcode op => .reservedOpcode op
  | .reservedArgument op arg => .reservedArgument op arg
  | .reservedKind kind => .reservedOpcode (kind.zeroExtend 8)
  | .durationNotZero kind => .reservedOpcode (kind.zeroExtend 8)

/-- `HostWrite(idx, v)` (R23, R40): a CMD write is decoded (R79); a write to any other index is refused. -/
def fetchWrite (idx : RegIndex) (v : Word) (s : State) : Fetched :=
  if hostReg idx = .cmd then
    match decodeCommand v with
    | .ok i => .command i s
    | .error e => .done (.refused (refusalOf e))
  else .done (.refused (.writeOfReadOnly idx))

/-- `HostWrite(0, w)` with the command held before its first statement (R23, R79, R80, R205). -/
def fetchWriteHeld (w : Word) (s : State) : Host.Outcome State Fault Refusal :=
  match decodeCommand w with
  | .ok i => holdCommand i s
  | .error e => .refused (refusalOf e)

/-- The request an answer is for (R100, R103): the outstanding one, if it has no response yet. -/
def awaited (s : State) : Except Fault Request :=
  match s.request with
  | none => .error .unsolicitedAnswer
  | some w =>
    if (pendingReply s).isSome then .error .unsolicitedAnswer
    else
      match decodeRequest w with
      | .ok r => .ok r
      | .error _ => .error .reservedRequest

/-- An answer the engine acts on at once. -/
def fetchAnswer (s : State) : Fetched :=
  match awaited s with
  | .ok r => .request r.toInstr
  | .error f => .done (.fault f)

/-- An answer the engine, held, does not act on yet: the running command has a pending response (R231). -/
def holdAnswer (d : Draw) (s : State) : Host.Outcome State Fault Refusal :=
  match awaited s, s.seq with
  | .ok r, some q => .next { s with seq := some { q with reply := some (respond r d) } }
  | .ok _, none => .fault .unsolicitedAnswer
  | .error f, _ => .fault f

/-- The next event (R236). With none to come the engine stays as it is: it does nothing until the host writes CMD
(R232), and a request may never be answered (R113). -/
def fetch (s : State) : Fetched :=
  match s.inputs with
  | [] => .done (.next s)
  | .hostWrite idx v :: ins => fetchWrite idx v { s with inputs := ins }
  | .hostRead idx :: ins => .done (hostRead idx { s with inputs := ins })
  | .por :: ins => .done (.next (powerOnReset { s with inputs := ins }))
  | .hostWriteHeld w :: ins => .done (fetchWriteHeld w { s with inputs := ins })
  | .answer _ :: _ => fetchAnswer s
  | .answerHeld d :: ins => .done (holdAnswer d { s with inputs := ins })
  | .proceed :: ins => .done (.next (proceed { s with inputs := ins }))

/-- After an answered request, the running command goes on for as long as answers are there (R27, R62). -/
def continueCommand (o : Host.Outcome State Fault Refusal) : Host.Outcome State Fault Refusal :=
  match o with
  | .next s => .next (runOn (resume s))
  | .fault r => .fault r
  | .refused r => .refused r

/-- An answer that succeeds with level LOW. -/
def okDraw : Draw := { fail := false, detail := 0, level := false }

/-- A state in which no command runs and `STATE` admits the command that `w` is; the same state where it already does
(R231: a named start state). -/
def readyFor (w : Word) (s : State) : State :=
  match decodeCommand w with
  | .ok i => if admits i s.proto then s else { s with proto := .idle, seq := none, request := none }
  | .error _ => s

/-- The CMD write of `w` is the next event. -/
def placeCommand (w : Word) (s : State) : State :=
  { readyFor w s with inputs := .hostWrite 0 w :: s.inputs }

/-- `w` is the outstanding request word, with no response yet, and its answer the next event. -/
def placeRequest (w : ReqWord) (s : State) : State :=
  { s with
    seq := s.seq.map fun q => { q with reply := none }
    request := some w
    inputs := .answer okDraw :: s.inputs }

end Sys2Proof.Machine
end

