-- ==== Sys2Proof/Machine/Step.lean ====
section
/-! DEFINITION. One step of the engine: the event at the head of the events, with the answers that directly follow. -/

namespace Sys2Proof.Machine

open Sys2Proof

/-- One step (R62, R236): take the next event and run the instruction it asks for, if it asks for one. -/
def step (s : State) : Host.Outcome State Fault Refusal :=
  match fetch s with
  | .command i s' => exec i s'
  | .request i => continueCommand (exec i s)
  | .done o => o

/-- `s` with the word `w` of a row of `nbits` bits placed where the step fetches its next instruction: a command word as
the next CMD write, in a STATE that admits it; a bus request word as the outstanding request, answered next (log entry
12). -/
def State.withFetchWord (s : State) (nbits w : Nat) : State :=
  if nbits ≤ 16 then placeCommand (BitVec.ofNat 16 w) s else placeRequest (BitVec.ofNat 24 w) s

end Sys2Proof.Machine
end

