-- ==== Sys2Proof/Machine/HostPort.lean ====
section
/-! DEFINITION. The host's side of the port (30_encoding.md R86): the port operations a pseudo-instruction expands to. -/

namespace Sys2Proof.Machine

open Sys2Proof

/-- A command mnemonic expands to `HostWrite(0, word)` (R86); a bus request has no command word. -/
def hostCommand (i : Instr) : List Input :=
  match i.commandWord? with
  | some w => [.hostWrite 0 w]
  | none => []

/-- `.word <imm16>` (R85): a raw word, which may be reserved. -/
def hostRaw (w : Word) : List Input := [.hostWrite 0 w]

/-- `RD <reg>` expands to `HostRead(idx)` (R86). -/
def hostRd (r : HostReg) : List Input := [.hostRead r.index]

/-- The STATUS reads of a SYNC that looked `n` times (R86). -/
def hostSync (n : Nat) : List Input := List.replicate n (.hostRead HostReg.status.index)

/-- `MEASURE <kind>` expands to `GET_VALUE <kind>` then SYNC (R86). -/
def hostMeasure (k : Kind) (n : Nat) : List Input := hostCommand (.getValue k) ++ hostSync n

/-- Whether a STATUS value ends a SYNC: `s[1:0] ≠ 2` (R86). -/
def endsSync (status : Word) : Bool := status.extractLsb' 0 2 != 2

end Sys2Proof.Machine
end

