-- ==== Sys2Proof/Machine/Listing.lean ====
section
/-! DEFINITION. The written forms of 30_encoding.md: a command in assembler (R85), a bus event in the trace syntax
(R87). Nothing the machine does depends on them. -/

namespace Sys2Proof.Machine

open Sys2Proof

/-- A hexadecimal digit, capitals as the spec writes them. -/
def hexDigit (n : Nat) : String :=
  (["0", "1", "2", "3", "4", "5", "6", "7", "8", "9", "A", "B", "C", "D", "E", "F"][n % 16]?).getD ""

/-- A byte literal. -/
def byteText (b : Byte) : String := "0x" ++ hexDigit (b.toNat / 16) ++ hexDigit b.toNat

/-- A measurement kind (R85). -/
def kindText : Kind → String
  | .temperature => "TEMPERATURE"
  | .humidity => "HUMIDITY"

/-- READ_BYTE's operand (R85). -/
def ackText (ack : Bool) : String := if ack then "ACK" else "NOACK"

/-- A duration in decimal. -/
def durationText (d : Duration) : String := toString d.toNat

/-- An instruction as the assembler (R85) or the trace (R87) writes it. -/
def asmText : Instr → String
  | .init => "INIT"
  | .reset => "RESET"
  | .getValue k => "GET_VALUE " ++ kindText k
  | .getValues => "GET_VALUES"
  | .tstart => "TSTART"
  | .sendByte b => "SEND_BYTE " ++ byteText b
  | .readByte a => "READ_BYTE " ++ ackText a
  | .startMeas k => "START_MEAS " ++ kindText k
  | .poll => "POLL"
  | .readMeas => "READ_MEAS"
  | .crcMutate b => "CRC_MUTATE " ++ byteText b
  | .mirror b => "MIRROR " ++ byteText b
  | .clkLow => "CLK_LOW"
  | .clkHigh => "CLK_HIGH"
  | .datLow => "DAT_LOW"
  | .datHigh => "DAT_HIGH"
  | .datRelease => "DAT_RELEASE"
  | .sample => "SAMPLE"
  | .wait d => "WAIT " ++ durationText d

/-- The suffix of a failed request (R87). -/
def failText (p : Word) : String := if responseFail p then "!FAIL" else ""

/-- The level of a sample that succeeded (R87). A failed sample is written with no level, `SAMPLE!FAIL`: R87 does not say
whether it shows one (DESIGN CHOICE, log entry 21). -/
def levelText (r : Request) (p : Word) : String :=
  if carriesLevel r && !responseFail p then (if responseLevel p then "=1" else "=0") else ""

/-- What the response adds to a trace item: a sample's level, `!FAIL` (R87); nothing for a request with no response, for
which R87 gives no form of its own (DESIGN CHOICE, log entry 20). -/
def responseText (r : Request) : Option Word → String
  | some p => levelText r p ++ failText p
  | none => ""

/-- One trace item (R87): the request's name, a sample's level, `!FAIL`. A word that is no request has no item. -/
def traceItem (e : BusEvent) : String :=
  match decodeRequest e.request with
  | .ok r => asmText r.toInstr ++ responseText r e.response
  | .error _ => ""

/-- The bus trace in issue order (R102, R87). -/
def traceText (s : State) : List String := (busTrace s).map traceItem

/-! ### The assembler (R85) -/

/-- The value of a hexadecimal digit, capital or small. -/
def hexValue (c : Char) : Option Nat :=
  if 48 ≤ c.toNat ∧ c.toNat ≤ 57 then some (c.toNat - 48)
  else if 65 ≤ c.toNat ∧ c.toNat ≤ 70 then some (c.toNat - 55)
  else if 97 ≤ c.toNat ∧ c.toNat ≤ 102 then some (c.toNat - 87)
  else none

/-- The value of a binary digit. -/
def binValue (c : Char) : Option Nat :=
  if c = '0' then some 0 else if c = '1' then some 1 else none

/-- The number that digits write in a base, from the value `n` of the digits before them. -/
def digitsNumber (base : Nat) (digit : Char → Option Nat) : List Char → Nat → Option Nat
  | [], n => some n
  | c :: cs, n =>
    match digit c with
    | some v => digitsNumber base digit cs (base * n + v)
    | none => none

/-- The number a literal writes: `0x…` hexadecimal, `0b…` binary (R9). R85 does not say how many digits a literal has, in
which case, or whether other forms exist: one digit or more, hexadecimal letters in either case, no other form (DESIGN
CHOICE, log entry 22). -/
def literalNumber (s : String) : Option Nat :=
  match s.toList with
  | '0' :: 'x' :: c :: cs => digitsNumber 16 hexValue (c :: cs) 0
  | '0' :: 'b' :: c :: cs => digitsNumber 2 binValue (c :: cs) 0
  | _ => none

/-- A literal whose number is below the bound; a larger one is none (log entry 22). -/
def literalBelow (bound : Nat) (s : String) : Option Nat := (literalNumber s).filter (fun n => n < bound)

/-- `<imm8>` (R85). -/
def parseByte (s : String) : Option Byte := (literalBelow (2 ^ 8) s).map (BitVec.ofNat 8)

/-- `<imm16>` (R85). -/
def parseWord (s : String) : Option Word := (literalBelow (2 ^ 16) s).map (BitVec.ofNat 16)

/-- `<kind>`, in full or abbreviated (R85). -/
def parseKind (s : String) : Option Kind :=
  if s = "TEMPERATURE" ∨ s = "T" then some .temperature
  else if s = "HUMIDITY" ∨ s = "H" then some .humidity
  else none

/-- READ_BYTE's operand (R85). -/
def parseAck (s : String) : Option Bool :=
  if s = "ACK" then some true else if s = "NOACK" then some false else none

/-- A command written with no operand (R85). -/
def assembleBare (m : String) : Option Instr :=
  if m = "INIT" then some .init
  else if m = "RESET" then some .reset
  else if m = "GET_VALUES" then some .getValues
  else if m = "TSTART" then some .tstart
  else if m = "POLL" then some .poll
  else if m = "READ_MEAS" then some .readMeas
  else none

/-- A command written with one operand (R85). -/
def assembleWith (m x : String) : Option Instr :=
  if m = "GET_VALUE" then (parseKind x).map .getValue
  else if m = "SEND_BYTE" then (parseByte x).map .sendByte
  else if m = "READ_BYTE" then (parseAck x).map .readByte
  else if m = "START_MEAS" then (parseKind x).map .startMeas
  else if m = "CRC_MUTATE" then (parseByte x).map .crcMutate
  else if m = "MIRROR" then (parseByte x).map .mirror
  else none

/-- A line of assembler, split at its spaces, to its one command word; `.word` emits a raw word (R85). -/
def assemble : List String → Option Word
  | [m] => (assembleBare m).bind Instr.commandWord?
  | [m, x] => if m = ".word" then parseWord x else (assembleWith m x).bind Instr.commandWord?
  | _ => none

end Sys2Proof.Machine
end

