-- ==== Sys2Proof/Safety.lean ====
section
/-! DEFINITION. The terms the statements use: what a run shows and when it ends (70_reset_and_hazards.md R237), the
states a run reaches (`Coherent`), what the line interface may see (`LegalBus`), and the answers an environment gives
that lets a command finish. -/

namespace Sys2Proof.Machine

open Sys2Proof

/-! ### Observation -/

/-- What R237 calls the observation of a run: the readable registers, the host's reads and the bus trace (R102), the last
two in the order they happened. A request that a power-on reset abandoned is in the trace, with no response if it had
none (log entry 20). -/
structure Observation where
  status : Word
  value : Word
  tempRaw : Word
  humRaw : Word
  crc : Word
  pollcnt : Word
  faultInfo : Word
  reads : List HostRead
  trace : List BusEvent
deriving DecidableEq, Repr

/-- The observation of a state (R237). -/
def observe (s : State) : Observation where
  status := registerValue s .status
  value := registerValue s .value
  tempRaw := registerValue s .tempRaw
  humRaw := registerValue s .humRaw
  crc := registerValue s .crc
  pollcnt := registerValue s .pollcnt
  faultInfo := registerValue s .faultInfo
  reads := s.reads.reverse
  trace := busTrace s

/-- R237: a run ends when the host's last port operation has been performed and no command runs. -/
abbrev Ended (s : State) : Prop := s.inputs = [] ∧ s.proto ≠ .transmitting

/-- The request words issued so far, in issue order (R102). -/
def issued (s : State) : List ReqWord := (busTrace s).map BusEvent.request

/-- An event of the trace that is a WAIT (R82). -/
def isWait (e : BusEvent) : Bool := kindField e.request == 0x7

/-- How many WAIT requests are among the events (R245). -/
def waitCount (es : List BusEvent) : Nat := es.countP isWait

/-- The sum of the durations of the WAIT requests among the events, in microseconds (R245). -/
def waitTime (es : List BusEvent) : Nat := ((es.filter isWait).map fun e => (durField e.request).toNat).sum

/-- The parameters the source gives are at their normative values (R6); the two OPEN bytes are any. -/
abbrev Normative (p : Params) : Prop := p.toLiterals = Literals.normative

/-! ### The states a run reaches -/

/-- The request the statement at the sequencer's position issues. -/
def seqRequest (s : State) : Option Request := (s.seq.bind (seqStmt s.params)).bind Stmt.request?

/-- Whether the running command is inside the poll loop (R173). -/
def inPoll (s : State) : Bool :=
  match s.seq with
  | none => false
  | some q => ((seqRest s.params q).take 3).contains .pollTest

/-- A request is outstanding, the one at the running command's position (R100). -/
def atRequest (s : State) : Bool := s.request.isSome && s.request == (seqRequest s).map Request.word

/-- The command is held before its first statement (R205, log entry 17): it has issued nothing. -/
def atStart (s : State) (q : Seq) : Bool := s.request == none && q.pos == 0 && q.reply == none

/-- What holds of every state a run reaches: a command runs exactly while `STATE` is TRANSMITTING (R27); it stands at an
outstanding request, or is held before its first statement, and with no command nothing is outstanding (R100); the running
command was admitted (R80); ERR is a code the engine produces (R24); POLL_LIMIT is not 0 (R6), POLLCNT is at most POLL_LIMIT
(R34), and not 0 inside the poll loop. -/
abbrev Coherent (s : State) : Prop :=
  (s.proto = .transmitting ↔ s.seq.isSome = true) ∧
  (s.seq = none → s.request = none) ∧
  s.seq.all (fun q => atRequest s || atStart s q) = true ∧
  s.seq.all (fun q => admits q.cmd q.origin) = true ∧
  s.err.toNat ≤ 4 ∧
  s.params.pollLimit ≠ 0 ∧
  s.pollcnt ≤ s.params.pollLimit ∧
  (inPoll s = true → s.pollcnt ≠ 0)

/-- A response word the environment may give a request (R83): bits 7 to 2 zero, a level only for a SAMPLE, a failure
never for a WAIT, a detail only with a failure. -/
def legalResponse (r : Request) (p : Word) : Bool :=
  p.extractLsb' 2 6 == 0 && (!responseLevel p || carriesLevel r) && (!responseFail p || mayFail r) &&
    (responseFail p || responseDetail p == 0)

/-- An event of the trace that R82 and R83 allow; a request that was never answered has no response to allow. -/
def legalEvent (p : Params) (e : BusEvent) : Bool :=
  match decodeRequest e.request with
  | .ok r => r.wellFormed p && e.response.all (legalResponse r)
  | .error _ => false

/-- Every request issued and every response received so far is one R82 and R83 allow. -/
abbrev LegalBus (s : State) : Prop := (busTrace s).all (legalEvent s.params) = true

/-! ### The host's write of CMD -/

/-- The next event is a CMD write of `w`, the engine then going on or held (R51, log entry 17); `ins` come after it. -/
abbrev CmdWrite (s : State) (w : Word) (ins : List Input) : Prop :=
  s.inputs = .hostWrite 0 w :: ins ∨ s.inputs = .hostWriteHeld w :: ins

/-! ### Answers -/

/-- The events that answer the requests with the draws `ds`, in order. -/
def answers (ds : List Draw) : List Input := ds.map .answer

/-- No draw is a failure. -/
abbrev Succeed (ds : List Draw) : Prop := ∀ d ∈ ds, d.fail = false

/-- The level of the `n`-th draw, counted from 0. -/
def levelAt (ds : List Draw) (n : Nat) : Option Bool := (ds[n]?).map Draw.level

/-- Answers to the three requests of Init (R141). -/
abbrev InitAnswers (ds : List Draw) : Prop := ds.length = 3 ∧ Succeed ds

/-- Answers to the twelve requests of TStart (R145). -/
abbrev TStartAnswers (ds : List Draw) : Prop := ds.length = 12 ∧ Succeed ds

/-- Answers to SendByte's 57 requests, the acknowledgement sample (the 55th) LOW (R146, R148). -/
abbrev AckAnswers (ds : List Draw) : Prop := ds.length = 57 ∧ Succeed ds ∧ levelAt ds 54 = some false

/-- Answers to SendByte's first 55 requests, the acknowledgement sample HIGH (R148). -/
abbrev NackAnswers (ds : List Draw) : Prop := ds.length = 55 ∧ Succeed ds ∧ levelAt ds 54 = some true

/-- Answers to Reset's requests, 106 of them when RESET_TOGGLES is 9, the reset byte acknowledged (R142). -/
abbrev ResetAnswers (p : Params) (ds : List Draw) : Prop :=
  ds.length = 1 + 4 * p.resetToggles + 12 + 57 ∧ Succeed ds ∧
    levelAt ds (1 + 4 * p.resetToggles + 12 + 54) = some false

/-- Answers to StartMeas's 69 requests, the command byte acknowledged (R172). -/
abbrev StartAnswers (ds : List Draw) : Prop := ds.length = 69 ∧ Succeed ds ∧ levelAt ds 66 = some false

/-- The samples of ReadByte's eight bits, five requests a bit, carry `v`, most significant bit first (R149, R53). -/
abbrev CarriesByte (v : Byte) (ds : List Draw) : Prop := ∀ i < 8, levelAt ds (5 * (7 - i) + 2) = some (v.getLsbD i)

/-- Answers to ReadByte's 48 requests with acknowledgement, or 44 without, that carry `v` (R149). -/
abbrev ReadAnswers (ack : Bool) (v : Byte) (ds : List Draw) : Prop :=
  ds.length = (if ack then 48 else 44) ∧ Succeed ds ∧ CarriesByte v ds

/-- Answers to Poll's requests with ready on the `k`-th sample (R173). -/
abbrev ReadyAnswers (p : Params) (k : Nat) (ds : List Draw) : Prop :=
  1 ≤ k ∧ k ≤ p.pollLimit.toNat ∧ ds.length = 2 * k ∧ Succeed ds ∧ ∀ j < k, levelAt ds (2 * j + 1) = some (decide (j + 1 < k))

/-- Answers to Poll's requests with POLL_LIMIT samples, all HIGH (R173). -/
abbrev NeverReadyAnswers (p : Params) (ds : List Draw) : Prop :=
  0 < p.pollLimit.toNat ∧ ds.length = 2 * p.pollLimit.toNat ∧ Succeed ds ∧ ∀ j < p.pollLimit.toNat, levelAt ds (2 * j + 1) = some true

/-- Answers to ReadMeas's 140 requests that carry the two data bytes and the checksum byte (R174). -/
abbrev ReadMeasAnswers (hi lo chk : Byte) (ds : List Draw) : Prop :=
  ∃ d1 d2 d3, ds = d1 ++ d2 ++ d3 ∧ ReadAnswers true hi d1 ∧ ReadAnswers true lo d2 ∧ ReadAnswers false chk d3

/-- Answers to GetValue's requests: the command byte acknowledged, ready on the `k`-th sample, the three bytes (R178). -/
abbrev GetValueAnswers (p : Params) (k : Nat) (hi lo chk : Byte) (ds : List Draw) : Prop :=
  ∃ d1 d2 d3, ds = d1 ++ d2 ++ d3 ∧ StartAnswers d1 ∧ ReadyAnswers p k d2 ∧ ReadMeasAnswers hi lo chk d3

/-- The accumulator after a measurement transaction: the command byte, then the two data bytes, from 0 (R121). -/
def measuredCrc (p : Params) (cmd hi lo : Byte) : Accum := mutate p.poly (mutate p.poly (mutate p.poly 0x00 cmd) hi) lo

/-! ### The requests of each operation, as the trace shows them -/

/-- Init's trace (R141). -/
def initRequests (p : Params) : List Request := [.wait p.tInit, .clkLow, .datLow]

/-- TStart's trace (R145). -/
def tStartRequests (p : Params) : List Request :=
  [.clkHigh, .wait p.tBit, .datLow, .wait p.tBit, .clkLow, .wait p.tBit, .clkHigh, .wait p.tBit, .datHigh,
    .wait p.tBit, .clkLow, .wait p.tBit]

/-- The trace of one bit sent by SendByte (R147). -/
def sendBitRequests (p : Params) (b : Bool) : List Request :=
  [.clkLow, .wait p.tBit, if b then .datHigh else .datLow, .wait p.tBit, .clkHigh, .wait p.tBit]

/-- SendByte's trace when the byte is acknowledged; its first 55 requests when it is not (R146, R148). -/
def sendRequests (p : Params) (v : Byte) : List Request :=
  [7, 6, 5, 4, 3, 2, 1, 0].flatMap (fun i => sendBitRequests p (v.getLsbD i)) ++
    [.clkLow, .wait p.tBit, .datRelease, .wait p.tBit, .clkHigh, .wait p.tBit, .sample, .clkLow, .wait p.tBit]

/-- ReadByte's trace (R149). -/
def readRequests (p : Params) (ack : Bool) : List Request :=
  (List.replicate 8 [.clkHigh, .wait p.tBit, .sample, .clkLow, .wait p.tBit]).flatten ++
    (if ack then [.datLow, .wait p.tBit] else []) ++ [.clkHigh, .wait p.tBit, .clkLow, .wait p.tBit] ++ (if ack then [.datRelease, .wait p.tBit] else [])

/-- Reset's trace (R142). -/
def resetRequests (p : Params) : List Request :=
  .datHigh :: (List.replicate p.resetToggles [.clkHigh, .wait p.tBit, .clkLow, .wait p.tBit]).flatten ++ tStartRequests p ++
    sendRequests p p.cmdReset

/-- StartMeas's trace, for the command byte it sends (R172). -/
def startRequests (p : Params) (cmd : Byte) : List Request := tStartRequests p ++ sendRequests p cmd

/-- Poll's trace when it takes `k` samples (R173). -/
def pollRequests (p : Params) (k : Nat) : List Request := (List.replicate k [.wait p.tPoll, .sample]).flatten

/-- ReadMeas's trace (R174). -/
def readMeasRequests (p : Params) : List Request :=
  readRequests p true ++ readRequests p true ++ readRequests p false

/-- GetValue's trace (R178). -/
def getValueRequests (p : Params) (cmd : Byte) (k : Nat) : List Request :=
  startRequests p cmd ++ pollRequests p k ++ readMeasRequests p

/-- The events of the trace for requests and their draws, in issue order (R102). -/
def eventsOf (rs : List Request) (ds : List Draw) : List BusEvent :=
  List.zipWith (fun r d => { request := r.word, response := some (respond r d) }) rs ds

/-! ### What a command leaves -/

/-- VALUE, TEMP_RAW and HUM_RAW are unchanged (R208). -/
abbrev SameResults (s t : State) : Prop := t.value = s.value ∧ t.tempRaw = s.tempRaw ∧ t.humRaw = s.humRaw

/-- A command that ended: STATE, ERR and FAULT_INFO (R207, R208), SEQ empty, nothing outstanding; the trace gained the
requests `rs`, answered by `ds`; the events still to come are `rest`; the parameters and what the host read are as they
were. -/
abbrev EndedWith (s t : State) (proto : ProtoState) (err : BitVec 3) (info : Word) (rs : List Request) (ds : List Draw)
    (rest : List Input) : Prop :=
  t.proto = proto ∧ t.err = err ∧ t.faultInfo = info ∧ t.seq = none ∧ t.request = none ∧
  t.trace = (eventsOf rs ds).reverse ++ s.trace ∧ t.inputs = rest ∧ t.params = s.params ∧ t.reads = s.reads ∧
  t.draws = s.draws

/-- The admission table of R80, as the states each command is admitted in. -/
def admittedStates : Instr → List ProtoState
  | .init => [.uninitialized, .idle, .failed]
  | .reset => [.idle, .failed]
  | .getValue _ => [.idle]
  | .getValues => [.idle]
  | .tstart => [.idle]
  | .sendByte _ => [.idle]
  | .readByte _ => [.idle]
  | .startMeas _ => [.idle]
  | .poll => [.idle]
  | .readMeas => [.idle]
  | .crcMutate _ => [.uninitialized, .idle, .failed]
  | .mirror _ => [.uninitialized, .idle, .failed]
  | .clkLow => []
  | .clkHigh => []
  | .datLow => []
  | .datHigh => []
  | .datRelease => []
  | .sample => []
  | .wait _ => []

/-- `STATE` after a command that started in `origin` succeeds, by the transition table of R31. -/
def stateAfterSuccess (i : Instr) (origin : ProtoState) : ProtoState :=
  match i with
  | .init => if origin = .failed then .failed else .idle
  | .crcMutate _ => origin
  | .mirror _ => origin
  | .reset => .idle
  | .getValue _ => .idle
  | .getValues => .idle
  | .tstart => .idle
  | .sendByte _ => .idle
  | .readByte _ => .idle
  | .startMeas _ => .idle
  | .poll => .idle
  | .readMeas => .idle
  | .clkLow => .idle
  | .clkHigh => .idle
  | .datLow => .idle
  | .datHigh => .idle
  | .datRelease => .idle
  | .sample => .idle
  | .wait _ => .idle

/-- Where it is admitted, the command `i` ends with `n` requests more in the trace, `w` of them WAITs, of `us`
microseconds in all (R245). -/
abbrev TraceGains (s : State) (i : Instr) (n w us : Nat) : Prop :=
  s.proto ∈ admittedStates i → ∃ t new, exec i s = .next t ∧ t.seq = none ∧ t.request = none ∧ t.trace = new ++ s.trace ∧ new.length = n ∧
    waitCount new = w ∧ waitTime new = us

end Sys2Proof.Machine
end

