-- ==== Sys2Proof/Certificates/Slice0/Obligations.lean ====
section
/-! DEFINITION. The statements about the engine. Each docstring names the rule of spec/ it formalises. -/

open Sys2Proof Sys2Proof.Machine

/-! ### Reset -/

/-- R230, R231: the power-on values, as `State.reset` holds them: every readable register reads 0x0000, the line records
are UNKNOWN, no command runs and nothing is in flight. -/
def Obligations.ResetHoldsThePorValues : Prop :=
  State.reset.proto = .uninitialized ∧ State.reset.err = 0 ∧ State.reset.crc = 0x00 ∧ State.reset.pollcnt = 0x00 ∧
  State.reset.value = 0x0000 ∧ State.reset.tempRaw = 0x0000 ∧ State.reset.humRaw = 0x0000 ∧
  State.reset.faultInfo = 0x0000 ∧ State.reset.clk = .unknown ∧ State.reset.dat = .unknown ∧ State.reset.seq = none ∧
  State.reset.request = none ∧
  ∀ r : HostReg, r ≠ .cmd → registerValue State.reset r = 0x0000

/-- R230: a power-on reset puts every piece of state in its power-on value in one step, whatever it held before, and
leaves nothing in flight (R231). -/
def Obligations.PorStepRestoresEveryRegister : Prop :=
  ∀ (s : State) (ins : List Input), s.inputs = .por :: ins →
    ∃ t, step s = .next t ∧ t.proto = .uninitialized ∧ t.err = 0 ∧ t.crc = 0x00 ∧ t.pollcnt = 0x00 ∧
      t.value = 0x0000 ∧ t.tempRaw = 0x0000 ∧ t.humRaw = 0x0000 ∧ t.faultInfo = 0x0000 ∧ t.clk = .unknown ∧
      t.dat = .unknown ∧ t.seq = none ∧ t.request = none ∧ ∀ r : HostReg, r ≠ .cmd → registerValue t r = 0x0000

/-! ### Encoding -/

/-- R70 to R74, R81, R82: every instruction is decoded from its own word, which fits its width. -/
def Obligations.EveryInstructionDecodesFromItsWord : Prop :=
  ∀ i : Instr,
    encode i < 2 ^ i.width ∧ decodeTableWord i.width (encode i) = some i

/-- R79, R82: a word that decodes is the word of what it decodes to, so that no two words have one meaning. -/
def Obligations.DecodedWordsEncodeBack : Prop :=
  (∀ (w : Word) (i : Instr), decodeCommand w = .ok i → i.commandWord? = some w) ∧
  (∀ (q : ReqWord) (r : Request), decodeRequest q = .ok r → r.word = q)

/-- R72, R82, R111: words written out from the spec's encodings. -/
def Obligations.SpecWordsDecode : Prop :=
  decodeTableWord 16 0x0100 = some .init ∧
  decodeTableWord 16 0x1001 = some (.getValue .humidity) ∧
  decodeTableWord 16 0x21A5 = some (.sendByte 0xA5) ∧
  decodeTableWord 16 0x2201 = some (.readByte true) ∧
  decodeTableWord 16 0x3000 = some (.startMeas .temperature) ∧
  decodeTableWord 16 0x4003 = some (.crcMutate 0x03) ∧
  decodeTableWord 24 0x500000 = some .datRelease ∧
  decodeTableWord 24 0x704E20 = some (.wait 20000)

/-- R76, R77: a CMD write with a reserved opcode, or with an argument its opcode does not allow, is refused, in every
state. -/
def Obligations.ReservedCommandWordsAreRefused : Prop :=
  ∀ (s : State) (w : Word) (ins : List Input), CmdWrite s w ins →
    (opField w ∉ ([0x01, 0x02, 0x10, 0x11, 0x20, 0x21, 0x22, 0x30, 0x31, 0x32, 0x40, 0x41] : List Byte) →
      step s = .refused (.reservedOpcode (opField w))) ∧
    (opField w ∈ ([0x01, 0x02, 0x11, 0x20, 0x31, 0x32] : List Byte) → argField w ≠ 0x00 →
      step s = .refused (.reservedArgument (opField w) (argField w))) ∧
    (opField w ∈ ([0x10, 0x22, 0x30] : List Byte) → 0x01 < argField w →
      step s = .refused (.reservedArgument (opField w) (argField w)))

/-! ### Fetching and admission -/

/-- R80: a command answers a next state exactly where the admission table says "yes", and is refused elsewhere. -/
def Obligations.CommandsRunExactlyWhereAdmitted : Prop :=
  ∀ (i : Instr) (s : State), i.isCommand = true →
    (s.proto ∈ admittedStates i → ∃ t, exec i s = .next t) ∧
    (s.proto ∉ admittedStates i → exec i s = .refused (.notAdmitted s.proto))

/-- R23, R79, R205: a CMD write whose word decodes runs the decoded command, the event taken. Where the write holds the
command before its first statement (log entry 17, DESIGN CHOICE), an admitted command is started and nothing else is
changed: STATE is TRANSMITTING, S0 the state it started from, SEQ at the first statement; one not admitted is refused. -/
def Obligations.StepRunsTheDecodedCommand : Prop :=
  ∀ (s : State) (w : Word) (i : Instr) (ins : List Input), decodeCommand w = .ok i →
    (s.inputs = .hostWrite 0 w :: ins → step s = exec i { s with inputs := ins }) ∧
    (s.inputs = .hostWriteHeld w :: ins →
      (s.proto ∈ admittedStates i →
        step s = .next { s with proto := .transmitting, seq := some (seqStart i s.proto), request := none, inputs := ins }) ∧
      (s.proto ∉ admittedStates i → step s = .refused (.notAdmitted s.proto)))

/-- R100, R101: an answer runs the row of the outstanding request. How far the same step then goes is the model's choice:
it takes the answers that directly follow (log entry 2, DESIGN CHOICE) and runs the statements between them; where the
answer holds the engine (log entry 17, DESIGN CHOICE), the step records the pending response (R231) and changes nothing
else. -/
def Obligations.StepRunsTheOutstandingRequest : Prop :=
  ∀ (s : State) (r : Request) (d : Draw) (ins : List Input), s.request = some r.word → pendingReply s = none →
    (s.inputs = .answer d :: ins → ∃ t, exec r.toInstr s = .next t ∧ step s = .next (runOn (resume t))) ∧
    (∀ q, s.seq = some q → s.inputs = .answerHeld d :: ins →
      step s = .next { s with seq := some { q with reply := some (respond r d) }, inputs := ins })

/-! ### The host port -/

/-- R40: a write to any index other than 0 and a read of index 0 are refused; no other index is reserved for reading. -/
def Obligations.PortAccessesWithoutMeaningAreRefused : Prop :=
  ∀ (s : State) (idx : RegIndex) (v : Word) (ins : List Input),
    (idx ≠ 0 → s.inputs = .hostWrite idx v :: ins → step s = .refused (.writeOfReadOnly idx)) ∧
    (s.inputs = .hostRead 0 :: ins → step s = .refused .readOfCmd) ∧
    (idx ≠ 0 → s.inputs = .hostRead idx :: ins → ∃ t, step s = .next t)

/-- R22, R24 to R26, R28 to R30, R59: what a read returns while no command runs, with no effect on any engine state; and
STATUS at any time. -/
def Obligations.HostReadsReturnTheRegisters : Prop :=
  ∀ (s : State) (idx : RegIndex) (ins : List Input), s.inputs = .hostRead idx :: ins →
    (idx = 1 → ∃ v : Word, v.toNat = 4 * s.err.toNat + s.proto.code.toNat ∧
      step s = .next { s with inputs := ins, reads := { idx := 1, value := v } :: s.reads }) ∧
    (s.proto ≠ .transmitting →
      (idx = 2 → step s = .next { s with inputs := ins, reads := { idx := 2, value := s.value } :: s.reads }) ∧
      (idx = 3 → step s = .next { s with inputs := ins, reads := { idx := 3, value := s.tempRaw } :: s.reads }) ∧
      (idx = 4 → step s = .next { s with inputs := ins, reads := { idx := 4, value := s.humRaw } :: s.reads }) ∧
      (idx = 5 → ∃ v : Word, v.toNat = s.crc.toNat ∧
        step s = .next { s with inputs := ins, reads := { idx := 5, value := v } :: s.reads }) ∧
      (idx = 6 → ∃ v : Word, v.toNat = s.pollcnt.toNat ∧
        step s = .next { s with inputs := ins, reads := { idx := 6, value := v } :: s.reads }) ∧
      (idx = 7 → step s = .next { s with inputs := ins, reads := { idx := 7, value := s.faultInfo } :: s.reads }))

/-- R39: while a command runs, held or waiting for an answer, a read of a register other than STATUS returns an arbitrary
value (the free value, whatever it is) and changes nothing of the engine; a write of CMD is refused. -/
def Obligations.ReadsWhileACommandRunsAreFree : Prop :=
  ∀ (s : State) (idx : RegIndex) (w : Word) (ins : List Input), s.proto = .transmitting →
    (2 ≤ idx → s.inputs = .hostRead idx :: ins →
      step s = .next { s with inputs := ins, draws := s.draws + 1, reads := { idx := idx, value := Config.freeRead s.draws } :: s.reads }) ∧
    (CmdWrite s w ins → ∃ r, step s = .refused r)

/-! ### The bus requests -/

/-- R105, R106: a clock request that succeeds sets CLK to its level and changes nothing else but the trace; one
that fails sets CLK to UNKNOWN and raises PinOperationFailure with its kind and the detail. -/
def Obligations.ClockRequestsDriveTheClock : Prop :=
  ∀ (s : State) (d : Draw) (ins : List Input), s.inputs = .answer d :: ins →
    (d.fail = false →
      exec .clkLow s = .next { s with clk := .low, request := none, inputs := ins, trace := { request := 0x100000, response := some 0x0000 } :: s.trace } ∧
      exec .clkHigh s = .next { s with clk := .high, request := none, inputs := ins, trace := { request := 0x200000, response := some 0x0000 } :: s.trace }) ∧
    (d.fail = true →
      (∃ t, exec .clkLow s = .next t ∧ t.clk = .unknown ∧ t.dat = s.dat ∧ t.err = 1 ∧ t.faultInfo = 0x1000 ||| zext16 d.detail) ∧
      (∃ t, exec .clkHigh s = .next t ∧ t.clk = .unknown ∧ t.dat = s.dat ∧ t.err = 1 ∧ t.faultInfo = 0x2000 ||| zext16 d.detail))

/-- R107, R108, R109: a data line request that succeeds sets DAT, whatever it was, and changes nothing else but the
trace; one that fails sets DAT to UNKNOWN and raises PinOperationFailure. -/
def Obligations.DataRequestsDriveTheDataLine : Prop :=
  ∀ (s : State) (d : Draw) (ins : List Input), s.inputs = .answer d :: ins →
    (d.fail = false →
      exec .datLow s = .next { s with dat := .low, request := none, inputs := ins, trace := { request := 0x300000, response := some 0x0000 } :: s.trace } ∧
      exec .datHigh s = .next { s with dat := .high, request := none, inputs := ins, trace := { request := 0x400000, response := some 0x0000 } :: s.trace } ∧
      exec .datRelease s = .next { s with dat := .released, request := none, inputs := ins, trace := { request := 0x500000, response := some 0x0000 } :: s.trace }) ∧
    (d.fail = true →
      (∃ t, exec .datLow s = .next t ∧ t.dat = .unknown ∧ t.clk = s.clk ∧ t.err = 1 ∧ t.faultInfo = 0x3000 ||| zext16 d.detail) ∧
      (∃ t, exec .datHigh s = .next t ∧ t.dat = .unknown ∧ t.clk = s.clk ∧ t.err = 1 ∧ t.faultInfo = 0x4000 ||| zext16 d.detail) ∧
      (∃ t, exec .datRelease s = .next t ∧ t.dat = .unknown ∧ t.clk = s.clk ∧ t.err = 1 ∧ t.faultInfo = 0x5000 ||| zext16 d.detail))

/-- R110: a SAMPLE that succeeds returns the drawn level to the running command and writes no state; one that fails
leaves CLK and DAT as they are and raises PinOperationFailure. -/
def Obligations.SampleReturnsTheDrawnLevel : Prop :=
  ∀ (s : State) (d : Draw) (ins : List Input), s.inputs = .answer d :: ins →
    (d.fail = false →
      exec .sample s = .next { s with
        seq := s.seq.map (fun q => { q with level := d.level }),
        request := none, inputs := ins,
        trace := { request := 0x600000, response := some (if d.level then 0x0001 else 0x0000) } :: s.trace }) ∧
    (d.fail = true →
      ∃ t, exec .sample s = .next t ∧ t.clk = s.clk ∧ t.dat = s.dat ∧ t.err = 1 ∧ t.faultInfo = 0x6000 ||| zext16 d.detail)

/-- R111: a WAIT, of any duration and whatever the environment draws, succeeds, writes no state, and is in the trace with
its duration. -/
def Obligations.WaitNeverFails : Prop :=
  ∀ (s : State) (dur : Duration) (d : Draw) (ins : List Input), s.inputs = .answer d :: ins →
    exec (.wait dur) s = .next { s with
      request := none, inputs := ins,
      trace := { request := (0x7 : BitVec 4) ++ dur, response := some 0x0000 } :: s.trace }

/-- R104: the outstanding request of the running command, with no response yet, fails. The command ends in this
step: the line record is UNKNOWN, CRC is cleared if the failure is inside TStart, ERR, FAULT_INFO and STATE are those of
a PinOperationFailure, and nothing else changes; no further request is issued. -/
def Obligations.FailedRequestEndsTheCommand : Prop :=
  ∀ (s : State) (q : Seq) (r : Request) (d : Draw) (ins : List Input), s.seq = some q → q.reply = none →
    s.request = some r.word → (∀ dur, r ≠ .wait dur) → d.fail = true → s.inputs = .answer d :: ins →
    step s = .next { s with
      clk := if r = .clkLow ∨ r = .clkHigh then .unknown else s.clk,
      dat := if r = .datLow ∨ r = .datHigh ∨ r = .datRelease then .unknown else s.dat,
      crc := if inHandshake s then 0x00 else s.crc,
      err := 1, faultInfo := (r.kind.zeroExtend 16 <<< 12) ||| zext16 d.detail,
      proto := if q.cmd = .init then .uninitialized else .failed,
      seq := none, request := none, inputs := ins,
      trace := { request := r.word, response := some (respond r d) } :: s.trace }

/-- R100, R113: with no answer there, a request is issued and stays outstanding. That a step with no event at all leaves
the engine as it is, in whatever state, is the model's deduction from R113 and R232 (log entry 4, DEDUCED), and so is that
an engine with nothing held, no command running or its request not answered, does not move when told to go on. -/
def Obligations.UnansweredRequestWaits : Prop :=
  (∀ (s : State) (r : Request), (∀ d ins, s.inputs ≠ .answer d :: ins) →
    exec r.toInstr s = .next { s with request := some r.word }) ∧
  (∀ s : State, s.inputs = [] → step s = .next s) ∧
  (∀ (s : State) (ins : List Input), s.inputs = .proceed :: ins →
    (s.seq = none ∨ s.request.isSome = true ∧ pendingReply s = none) → step s = .next { s with inputs := ins })

/-! ### INIT and RESET -/

/-- R141, R207, R31: INIT with its three requests answered drives both pins low, touches no other register, and leaves
IDLE, or FAILED if it started there. -/
def Obligations.InitEstablishesTheIdleState : Prop :=
  ∀ (s : State) (ds : List Draw) (rest : List Input), s.proto ≠ .transmitting → InitAnswers ds →
    s.inputs = answers ds ++ rest →
    exec .init s = .next { s with
      clk := .low, dat := .low, err := 0, faultInfo := 0x0000,
      proto := if s.proto = .failed then .failed else .idle,
      seq := none, request := none, inputs := rest,
      trace := (eventsOf (initRequests s.params) ds).reverse ++ s.trace }

/-- R141, R208, D17: an INIT whose second or third request fails leaves UNINITIALIZED, whatever it started in, with the
failed line's record UNKNOWN. -/
def Obligations.FailedInitLeavesUninitialized : Prop :=
  ∀ (s : State) (d1 d2 d3 : Draw) (rest : List Input), s.proto ≠ .transmitting →
    (s.inputs = answers [d1, d2] ++ rest → d2.fail = true →
      ∃ t, exec .init s = .next t ∧
        EndedWith s t .uninitialized 1 (0x1000 ||| zext16 d2.detail) [.wait s.params.tInit, .clkLow] [d1, d2] rest ∧
        t.clk = .unknown ∧ t.dat = s.dat ∧ t.crc = s.crc ∧ t.pollcnt = s.pollcnt ∧ SameResults s t) ∧
    (s.inputs = answers [d1, d2, d3] ++ rest → d2.fail = false → d3.fail = true →
      ∃ t, exec .init s = .next t ∧
        EndedWith s t .uninitialized 1 (0x3000 ||| zext16 d3.detail) (initRequests s.params) [d1, d2, d3] rest ∧
        t.clk = .low ∧ t.dat = .unknown ∧ t.crc = s.crc ∧ t.pollcnt = s.pollcnt ∧ SameResults s t)

/-- R142: RESET with its requests answered and the reset byte acknowledged leaves IDLE, CRC the reset byte folded into 0,
CLK LOW, DAT RELEASED, from IDLE and from FAILED alike, and no other register changes (R233). With the normative literals
these are 106 requests and CRC 0x5C. -/
def Obligations.ResetForcesTheSensorOut : Prop :=
  ∀ (s : State) (ds : List Draw) (rest : List Input), (s.proto = .idle ∨ s.proto = .failed) → ResetAnswers s.params ds →
    s.inputs = answers ds ++ rest →
    ∃ t, exec .reset s = .next t ∧ EndedWith s t .idle 0 0x0000 (resetRequests s.params) ds rest ∧
      t.crc = mutate s.params.poly 0x00 s.params.cmdReset ∧
      (Normative s.params → ds.length = 106 ∧ t.crc = 0x5C) ∧
      t.clk = .low ∧ t.dat = .released ∧ t.pollcnt = s.pollcnt ∧ SameResults s t

/-! ### TSTART, SEND_BYTE, READ_BYTE -/

/-- R143, R145: TSTART clears CRC and leaves CLK LOW, DAT HIGH. -/
def Obligations.TstartClearsTheCrc : Prop :=
  ∀ (s : State) (ds : List Draw) (rest : List Input), s.proto = .idle → TStartAnswers ds →
    s.inputs = answers ds ++ rest →
    ∃ t, exec .tstart s = .next t ∧ EndedWith s t .idle 0 0x0000 (tStartRequests s.params) ds rest ∧
      t.crc = 0x00 ∧ t.clk = .low ∧ t.dat = .high ∧ t.pollcnt = s.pollcnt ∧ SameResults s t

/-- R145, R206, C3: a line action of TStart that fails ends TSTART with CRC cleared, the one statement that runs on
failure; the requests after it are not issued. -/
def Obligations.FailedTstartClearsTheCrc : Prop :=
  ∀ (s : State) (ds : List Draw) (d : Draw) (r : Request) (rest : List Input), s.proto = .idle → Succeed ds →
    (tStartRequests s.params)[ds.length]? = some r → (∀ dur, r ≠ .wait dur) → d.fail = true →
    s.inputs = answers (ds ++ [d]) ++ rest →
    ∃ t, exec .tstart s = .next t ∧
      EndedWith s t .failed 1 ((r.kind.zeroExtend 16 <<< 12) ||| zext16 d.detail)
        ((tStartRequests s.params).take (ds.length + 1)) (ds ++ [d]) rest ∧
      t.crc = 0x00 ∧ t.pollcnt = s.pollcnt ∧ SameResults s t

/-- R144, R146, R148: SEND_BYTE acknowledged folds the byte into CRC and leaves CLK LOW, DAT RELEASED. -/
def Obligations.SendByteFoldsAnAcknowledgedByte : Prop :=
  ∀ (s : State) (v : Byte) (ds : List Draw) (rest : List Input), s.proto = .idle → AckAnswers ds →
    s.inputs = answers ds ++ rest →
    ∃ t, exec (.sendByte v) s = .next t ∧ EndedWith s t .idle 0 0x0000 (sendRequests s.params v) ds rest ∧
      t.crc = mutate s.params.poly s.crc v ∧ t.clk = .low ∧ t.dat = .released ∧ t.pollcnt = s.pollcnt ∧ SameResults s t

/-- R148, R202: SEND_BYTE not acknowledged ends right after the sample with ProtocolNack: CRC is not mutated, CLK stays
HIGH, DAT RELEASED. -/
def Obligations.SendByteNackLeavesTheCrc : Prop :=
  ∀ (s : State) (v : Byte) (ds : List Draw) (rest : List Input), s.proto = .idle → NackAnswers ds →
    s.inputs = answers ds ++ rest →
    ∃ t, exec (.sendByte v) s = .next t ∧ EndedWith s t .failed 2 (zext16 v) ((sendRequests s.params v).take 55) ds rest ∧
      t.crc = s.crc ∧ t.clk = .high ∧ t.dat = .released ∧ t.pollcnt = s.pollcnt ∧ SameResults s t

/-- R149, R150: READ_BYTE assembles the sampled bits most significant first into VALUE; CRC is untouched; with
acknowledgement DAT ends RELEASED, without it DAT is as on entry (R239). -/
def Obligations.ReadByteAssemblesTheByte : Prop :=
  ∀ (s : State) (ack : Bool) (v : Byte) (ds : List Draw) (rest : List Input), s.proto = .idle →
    ReadAnswers ack v ds → s.inputs = answers ds ++ rest →
    ∃ t, exec (.readByte ack) s = .next t ∧ EndedWith s t .idle 0 0x0000 (readRequests s.params ack) ds rest ∧
      t.value = zext16 v ∧ t.tempRaw = s.tempRaw ∧ t.humRaw = s.humRaw ∧ t.crc = s.crc ∧ t.pollcnt = s.pollcnt ∧
      t.clk = .low ∧ t.dat = if ack then .released else s.dat

/-! ### The measurement commands -/

/-- R172, R175: START_MEAS acknowledged leaves CRC at the command byte folded into 0, for both kinds and whatever the two
command bytes are. -/
def Obligations.StartMeasSendsTheCommandByte : Prop :=
  ∀ (s : State) (k : Kind) (ds : List Draw) (rest : List Input), s.proto = .idle → StartAnswers ds →
    s.inputs = answers ds ++ rest →
    ∃ t, exec (.startMeas k) s = .next t ∧
      EndedWith s t .idle 0 0x0000 (startRequests s.params (commandByteFor s.params k)) ds rest ∧
      t.crc = mutate s.params.poly 0x00 (commandByteFor s.params k) ∧ t.clk = .low ∧ t.dat = .released ∧
      t.pollcnt = s.pollcnt ∧ SameResults s t

/-- R173, R176, R180, R29: POLL with ready on the k-th sample, k from 1 to POLL_LIMIT (62), succeeds with POLLCNT
POLL_LIMIT + 1 - k and changes CRC, CLK and DAT not at all. -/
def Obligations.PollSucceedsOnTheReadySample : Prop :=
  ∀ (s : State) (k : Nat) (ds : List Draw) (rest : List Input), s.proto = .idle → ReadyAnswers s.params k ds →
    s.inputs = answers ds ++ rest →
    ∃ t, exec .poll s = .next t ∧ EndedWith s t .idle 0 0x0000 (pollRequests s.params k) ds rest ∧
      t.pollcnt.toNat = s.params.pollLimit.toNat + 1 - k ∧
      t.crc = s.crc ∧ t.clk = s.clk ∧ t.dat = s.dat ∧ SameResults s t

/-- R173, R203: POLL with POLL_LIMIT HIGH samples ends with MeasurementTimeout and POLLCNT 0 after exactly two requests a
sample, which with the normative literals are 62 samples and 124 requests. -/
def Obligations.PollTimesOutAfterSixtyTwoSamples : Prop :=
  ∀ (s : State) (ds : List Draw) (rest : List Input), s.proto = .idle → NeverReadyAnswers s.params ds →
    s.inputs = answers ds ++ rest →
    ∃ t, exec .poll s = .next t ∧
      EndedWith s t .failed 3 0x0000 (pollRequests s.params s.params.pollLimit.toNat) ds rest ∧
      (Normative s.params → s.params.pollLimit.toNat = 62 ∧ ds.length = 124) ∧
      t.pollcnt = 0 ∧ t.crc = s.crc ∧ t.clk = s.clk ∧ t.dat = s.dat ∧ SameResults s t

/-- R174, R177, R181: READ_MEAS with an agreeing checksum byte writes the composed raw value to VALUE. -/
def Obligations.ReadMeasReturnsTheCheckedValue : Prop :=
  ∀ (s : State) (hi lo chk : Byte) (ds : List Draw) (rest : List Input), s.proto = .idle →
    ReadMeasAnswers hi lo chk ds → s.inputs = answers ds ++ rest →
    mutate s.params.poly (mutate s.params.poly s.crc hi) lo = mirror chk →
    ∃ t, exec .readMeas s = .next t ∧ EndedWith s t .idle 0 0x0000 (readMeasRequests s.params) ds rest ∧
      t.value = hi ++ lo ∧ t.tempRaw = s.tempRaw ∧ t.humRaw = s.humRaw ∧
      t.crc = mutate s.params.poly (mutate s.params.poly s.crc hi) lo ∧ t.pollcnt = s.pollcnt ∧
      t.clk = .low ∧ t.dat = .released

/-- R174, R204, R209: READ_MEAS with a checksum byte that does not agree ends with ChecksumMismatch after all 140
requests, CRC at its accumulated value, VALUE unchanged. -/
def Obligations.ReadMeasRejectsABadChecksum : Prop :=
  ∀ (s : State) (hi lo chk : Byte) (ds : List Draw) (rest : List Input), s.proto = .idle →
    ReadMeasAnswers hi lo chk ds → s.inputs = answers ds ++ rest →
    mutate s.params.poly (mutate s.params.poly s.crc hi) lo ≠ mirror chk →
    ∃ t, exec .readMeas s = .next t ∧
      EndedWith s t .failed 4 (mutate s.params.poly (mutate s.params.poly s.crc hi) lo ++ chk) (readMeasRequests s.params) ds rest ∧
      t.crc = mutate s.params.poly (mutate s.params.poly s.crc hi) lo ∧ t.pollcnt = s.pollcnt ∧
      t.clk = .low ∧ t.dat = .released ∧ SameResults s t

/-- R178: GET_VALUE, for both kinds: command byte acknowledged, ready on the k-th sample, checksum agreeing: VALUE takes
the raw value after 209 + 2k requests. -/
def Obligations.GetValueReturnsOneReading : Prop :=
  ∀ (s : State) (kind : Kind) (k : Nat) (hi lo chk : Byte) (ds : List Draw) (rest : List Input), s.proto = .idle →
    GetValueAnswers s.params k hi lo chk ds → s.inputs = answers ds ++ rest →
    measuredCrc s.params (commandByteFor s.params kind) hi lo = mirror chk →
    ∃ t, exec (.getValue kind) s = .next t ∧
      EndedWith s t .idle 0 0x0000 (getValueRequests s.params (commandByteFor s.params kind) k) ds rest ∧ ds.length = 209 + 2 * k ∧
      t.value = hi ++ lo ∧ t.tempRaw = s.tempRaw ∧ t.humRaw = s.humRaw ∧
      t.crc = measuredCrc s.params (commandByteFor s.params kind) hi lo ∧ t.pollcnt.toNat = s.params.pollLimit.toNat + 1 - k ∧
      t.clk = .low ∧ t.dat = .released

/-- R179: GET_VALUES with both channels answered: TEMP_RAW and HUM_RAW together, VALUE untouched, CRC and POLLCNT the
HUMIDITY channel's. -/
def Obligations.GetValuesReturnsBothReadings : Prop :=
  ∀ (s : State) (k1 k2 : Nat) (hi1 lo1 chk1 hi2 lo2 chk2 : Byte) (ds1 ds2 : List Draw) (rest : List Input),
    s.proto = .idle → GetValueAnswers s.params k1 hi1 lo1 chk1 ds1 → GetValueAnswers s.params k2 hi2 lo2 chk2 ds2 →
    s.inputs = answers (ds1 ++ ds2) ++ rest →
    measuredCrc s.params s.params.cmdTemp hi1 lo1 = mirror chk1 → measuredCrc s.params s.params.cmdHum hi2 lo2 = mirror chk2 →
    ∃ t, exec .getValues s = .next t ∧
      EndedWith s t .idle 0 0x0000
        (getValueRequests s.params s.params.cmdTemp k1 ++ getValueRequests s.params s.params.cmdHum k2) (ds1 ++ ds2) rest ∧
      t.tempRaw = hi1 ++ lo1 ∧ t.humRaw = hi2 ++ lo2 ∧ t.value = s.value ∧
      t.crc = measuredCrc s.params s.params.cmdHum hi2 lo2 ∧ t.pollcnt.toNat = s.params.pollLimit.toNat + 1 - k2 ∧ t.clk = .low ∧ t.dat = .released

/-- R179, R208: GET_VALUES whose HUMIDITY checksum does not agree discards the good TEMPERATURE value: neither raw
register changes. -/
def Obligations.GetValuesDiscardsAHalfReading : Prop :=
  ∀ (s : State) (k1 k2 : Nat) (hi1 lo1 chk1 hi2 lo2 chk2 : Byte) (ds1 ds2 : List Draw) (rest : List Input),
    s.proto = .idle → GetValueAnswers s.params k1 hi1 lo1 chk1 ds1 → GetValueAnswers s.params k2 hi2 lo2 chk2 ds2 →
    s.inputs = answers (ds1 ++ ds2) ++ rest →
    measuredCrc s.params s.params.cmdTemp hi1 lo1 = mirror chk1 → measuredCrc s.params s.params.cmdHum hi2 lo2 ≠ mirror chk2 →
    ∃ t, exec .getValues s = .next t ∧
      EndedWith s t .failed 4 (measuredCrc s.params s.params.cmdHum hi2 lo2 ++ chk2)
        (getValueRequests s.params s.params.cmdTemp k1 ++ getValueRequests s.params s.params.cmdHum k2) (ds1 ++ ds2) rest ∧
      SameResults s t

/-- R178, R202, R206: a measurement whose command byte is not acknowledged ends there: nothing is polled or read, CRC is
0, no result register changes. -/
def Obligations.UnacknowledgedMeasurementStops : Prop :=
  ∀ (s : State) (i : Instr) (kind : Kind) (d1 d2 : List Draw) (rest : List Input), s.proto = .idle →
    (i = .startMeas kind ∨ i = .getValue kind ∨ (i = .getValues ∧ kind = .temperature)) →
    TStartAnswers d1 → NackAnswers d2 → s.inputs = answers (d1 ++ d2) ++ rest →
    ∃ t, exec i s = .next t ∧
      EndedWith s t .failed 2 (zext16 (commandByteFor s.params kind))
        ((startRequests s.params (commandByteFor s.params kind)).take 67) (d1 ++ d2) rest ∧
      t.crc = 0x00 ∧ t.clk = .high ∧ t.dat = .released ∧ t.pollcnt = s.pollcnt ∧ SameResults s t

/-! ### The CRC commands and the CRC functions -/

/-- R125, R207: CRC_MUTATE folds the byte into CRC, clears ERR and FAULT_INFO, and changes nothing else: STATE returns to
where it was and no request is issued. -/
def Obligations.CrcMutateFoldsTheByte : Prop :=
  ∀ (s : State) (b : Byte), s.proto ≠ .transmitting →
    exec (.crcMutate b) s = .next { s with
      crc := mutate s.params.poly s.crc b, err := 0, faultInfo := 0x0000, seq := none, request := none }

/-- R126, R207: MIRROR writes the mirrored byte, zero-extended, to VALUE, clears ERR and FAULT_INFO, and changes nothing
else. -/
def Obligations.MirrorWritesTheReversedByte : Prop :=
  ∀ (s : State) (b : Byte), s.proto ≠ .transmitting →
    ∃ v : Word, (∀ i < 16, v.getLsbD i = (decide (i < 8) && b.getLsbD (7 - i))) ∧
      exec (.mirror b) s = .next { s with
        value := v, err := 0, faultInfo := 0x0000, seq := none, request := none }

/-- R122: mirror exchanges bit i and bit 7 - i, and is its own inverse. -/
def Obligations.MirrorReversesTheBits : Prop :=
  (∀ (b : Byte), ∀ i < 8, (mirror b).getLsbD (7 - i) = b.getLsbD i) ∧ (∀ b : Byte, mirror (mirror b) = b)

/-- R128: mutate is linear over XOR and folds its byte in by XOR, whatever the feedback constant; with POLY at its
normative value it is a bijection of the byte. -/
def Obligations.MutateIsLinear : Prop :=
  (∀ (poly : Byte) (a1 a2 : Accum) (b1 b2 : Byte),
    mutate poly (a1 ^^^ a2) (b1 ^^^ b2) = mutate poly a1 b1 ^^^ mutate poly a2 b2) ∧
  (∀ (poly : Byte) (a : Accum) (b : Byte), mutate poly a b = mutate poly (a ^^^ b) 0x00) ∧
  (∀ (a : Accum) (b1 b2 : Byte),
    mutate Literals.normative.poly a b1 = mutate Literals.normative.poly a b2 → b1 = b2)

/-- R128: the values of `mutate(0, x)` the spec tabulates, POLY at its normative value. -/
def Obligations.MutateTable : Prop :=
  (([0x00, 0x01, 0x02, 0x03, 0x04, 0x05, 0x06, 0x07, 0x08, 0x09, 0x0A, 0x0B, 0x0C, 0x0D, 0x0E, 0x0F] : List Byte).map
    (mutate Literals.normative.poly 0x00) =
    [0x00, 0x31, 0x62, 0x53, 0xC4, 0xF5, 0xA6, 0x97, 0xB9, 0x88, 0xDB, 0xEA, 0x7D, 0x4C, 0x1F, 0x2E]) ∧
  ([0x10, 0x20, 0x40, 0x80] : List Byte).map (mutate Literals.normative.poly 0x00) = [0x43, 0x86, 0x3D, 0x7A]

/-- R124: masking the accumulator to 8 bits after every iteration gives the same result as masking once at the end,
whatever the feedback constant. -/
def Obligations.MaskingEveryIterationAgrees : Prop :=
  ∀ (poly : Byte) (acc : Accum) (b : Byte),
    ((repeatTimes (fun ad => ((mutateStep poly ad).1 &&& 0x00FF, (mutateStep poly ad).2 &&& 0x00FF)) 8
      (acc.zeroExtend 16, b.zeroExtend 16)).1.truncate 8 : Accum) = mutate poly acc b

/-- R127: the two forms of the checksum condition are the same condition. -/
def Obligations.ChecksumConditionsAgree : Prop :=
  ∀ (crc : Accum) (chk : Byte), (crc = mirror chk) ↔ (mirror crc = chk)

/-- R181: the composed raw value is the concatenation of its bytes, no bit masked. -/
def Obligations.RawValueIsTheConcatenation : Prop :=
  ∀ hi lo : Byte, composeRaw hi lo = hi ++ lo

/-! ### Every command -/

/-- R208: a command that fails leaves VALUE, TEMP_RAW and HUM_RAW as they were, and STATE UNINITIALIZED if it is INIT and
FAILED otherwise. -/
def Obligations.FailureReturnsNoPartialResult : Prop :=
  ∀ (i : Instr) (s t : State), i.isCommand = true → exec i s = .next t → t.proto ≠ .transmitting → t.err ≠ 0 →
    SameResults s t ∧ t.seq = none ∧ t.proto = if i = .init then .uninitialized else .failed

/-- R207, R31: a command that succeeds clears FAULT_INFO and leaves STATE as the transition table says. -/
def Obligations.SuccessFollowsTheTransitionTable : Prop :=
  ∀ (i : Instr) (s t : State), i.isCommand = true → exec i s = .next t → t.proto ≠ .transmitting → t.err = 0 →
    t.faultInfo = 0x0000 ∧ t.seq = none ∧ t.proto = stateAfterSuccess i s.proto

/-- R205, R64: while a command runs, and until it completes, no result register, ERR or FAULT_INFO has changed. -/
def Obligations.RunningCommandHidesItsResults : Prop :=
  ∀ (i : Instr) (s t : State), i.isCommand = true → exec i s = .next t → t.proto = .transmitting →
    SameResults s t ∧ t.err = s.err ∧ t.faultInfo = s.faultInfo ∧
    ∃ q, t.seq = some q ∧ q.cmd = i ∧ q.origin = s.proto

/-- R25, R26, R33, R34, R36: the frame of every command, whether it has completed or still runs: which commands write
VALUE, TEMP_RAW and HUM_RAW, POLLCNT, CRC, and the line records. No command touches the parameters, the host's reads or
the draws, and the trace only grows. -/
def Obligations.CommandFrames : Prop :=
  ∀ (i : Instr) (s t : State), i.isCommand = true → exec i s = .next t →
    ((∀ k, i ≠ .getValue k) → (∀ a, i ≠ .readByte a) → i ≠ .readMeas → (∀ b, i ≠ .mirror b) → t.value = s.value) ∧
    (i ≠ .getValues → t.tempRaw = s.tempRaw ∧ t.humRaw = s.humRaw) ∧
    (i ≠ .poll → (∀ k, i ≠ .getValue k) → i ≠ .getValues → t.pollcnt = s.pollcnt) ∧
    ((i = .init ∨ (∃ a, i = .readByte a) ∨ i = .poll ∨ ∃ b, i = .mirror b) → t.crc = s.crc) ∧
    ((i = .poll ∨ (∃ b, i = .crcMutate b) ∨ ∃ b, i = .mirror b) → t.clk = s.clk ∧ t.dat = s.dat) ∧
    t.params = s.params ∧ t.reads = s.reads ∧ t.draws = s.draws ∧ ∃ new, t.trace = new ++ s.trace

/-- The frame of every bus request: no result register, POLLCNT, parameter, read or draw changes, answered or not; CRC
only by TStart's failure statement (R145), ERR and FAULT_INFO only by a failure (R206). -/
def Obligations.BusRequestFrames : Prop :=
  ∀ (r : Request) (s t : State), exec r.toInstr s = .next t →
    SameResults s t ∧ t.pollcnt = s.pollcnt ∧ t.params = s.params ∧ t.reads = s.reads ∧ t.draws = s.draws ∧
    (t.crc = s.crc ∨ t.crc = 0x00 ∧ inHandshake s = true ∧ t.err = 1) ∧
    (t.err = s.err ∧ t.faultInfo = s.faultInfo ∧ t.proto = s.proto ∨ t.err = 1 ∧ t.seq = none) ∧
    (r ≠ .clkLow → r ≠ .clkHigh → t.clk = s.clk) ∧
    (r ≠ .datLow → r ≠ .datHigh → r ≠ .datRelease → t.dat = s.dat)

/-- R27, R62: how much one step takes is the model's choice (log entries 2 and 17, DESIGN CHOICE), and this says that it
does not matter. Running a command in two steps, its answers split anywhere, gives what running it in one step gives. A
command held before its first statement, and one held between an answer and what it does with it, is TRANSMITTING
meanwhile and then goes on to what it does when it is not held. -/
def Obligations.SuspendedRunEqualsWholeRun : Prop :=
  (∀ (i : Instr) (s t : State) (xs zs : List Draw) (z : Draw) (rest : List Input), i.isCommand = true →
    s.inputs = answers (xs ++ z :: zs) ++ rest →
    exec i { s with inputs := answers xs } = .next t → t.proto = .transmitting →
    step { t with inputs := answers (z :: zs) ++ rest } = exec i s) ∧
  (∀ (i : Instr) (s : State) (w : Word) (ins : List Input), i.commandWord? = some w → s.proto ∈ admittedStates i →
    s.inputs = .hostWriteHeld w :: .proceed :: ins →
    ∃ t, step s = .next t ∧ t.proto = .transmitting ∧ step t = exec i { s with inputs := ins }) ∧
  (∀ (s : State) (q : Seq) (r : Request) (d : Draw) (ins : List Input), s.proto = .transmitting → s.seq = some q →
    q.reply = none → s.request = some r.word → s.inputs = .answerHeld d :: .proceed :: ins →
    ∃ t, step s = .next t ∧ t.proto = .transmitting ∧ step t = step { s with inputs := .answer d :: ins })

/-- R151: in every composed command that samples, each SAMPLE is issued with DAT RELEASED, whatever DAT was before the
command and whatever the environment answers. -/
def Obligations.ComposedSamplesAreReleased : Prop :=
  ∀ (i : Instr) (s t : State),
    (i = .reset ∨ (∃ k, i = .startMeas k) ∨ (∃ k, i = .getValue k) ∨ i = .getValues) →
    exec i s = .next t → t.request = some 0x600000 → t.dat = .released

/-- Every operation text has fewer than 1024 statements, with the normative literals. The model numbers statements, loops
written out (log entry 9, DESIGN CHOICE), where R27's ten bits count the 666 bus requests of the longest command; its
position fits in ten bits too. -/
def Obligations.PositionsFitInTenBits : Prop :=
  ∀ (p : Params) (i : Instr), Normative p → (textOf p i).length < 1024

/-- R245, every row, with the normative literals: how many requests the command adds to the trace, how many of them are
WAITs, and the sum of their durations in microseconds. -/
def Obligations.MinimumWaits : Prop :=
  ∀ (s : State) (ds : List Draw) (rest : List Input), Normative s.params → s.inputs = answers ds ++ rest →
    (InitAnswers ds → TraceGains s .init 3 1 20000) ∧
    (ResetAnswers s.params ds → TraceGains s .reset 106 52 104) ∧
    (TStartAnswers ds → TraceGains s .tstart 12 6 12) ∧
    (∀ v, AckAnswers ds → TraceGains s (.sendByte v) 57 28 56) ∧
    (∀ v, NackAnswers ds → TraceGains s (.sendByte v) 55 27 54) ∧
    (∀ v, ReadAnswers true v ds → TraceGains s (.readByte true) 48 20 40) ∧
    (∀ v, ReadAnswers false v ds → TraceGains s (.readByte false) 44 18 36) ∧
    (∀ kind, StartAnswers ds → TraceGains s (.startMeas kind) 69 34 68) ∧
    (∀ k, ReadyAnswers s.params k ds → TraceGains s .poll (2 * k) k (5000 * k)) ∧
    (NeverReadyAnswers s.params ds → TraceGains s .poll 124 62 310000) ∧
    (∀ hi lo chk, ReadMeasAnswers hi lo chk ds →
      mutate s.params.poly (mutate s.params.poly s.crc hi) lo = mirror chk → TraceGains s .readMeas 140 58 116) ∧
    (∀ kind k hi lo chk, GetValueAnswers s.params k hi lo chk ds →
      measuredCrc s.params (commandByteFor s.params kind) hi lo = mirror chk →
      TraceGains s (.getValue kind) (209 + 2 * k) (92 + k) (184 + 5000 * k)) ∧
    (∀ k1 k2 hi1 lo1 chk1 hi2 lo2 chk2 ds1 ds2, ds = ds1 ++ ds2 →
      GetValueAnswers s.params k1 hi1 lo1 chk1 ds1 → GetValueAnswers s.params k2 hi2 lo2 chk2 ds2 →
      measuredCrc s.params s.params.cmdTemp hi1 lo1 = mirror chk1 →
      measuredCrc s.params s.params.cmdHum hi2 lo2 = mirror chk2 →
      TraceGains s .getValues (418 + 2 * (k1 + k2)) (184 + (k1 + k2)) (368 + 5000 * (k1 + k2))) ∧
    (∀ b, TraceGains s (.crcMutate b) 0 0 0 ∧ TraceGains s (.mirror b) 0 0 0)

/-! ### Invariants -/

/-- The coherence invariant holds at reset. -/
def Obligations.ResetIsCoherent : Prop := Coherent State.reset

/-- R24, R27, R34, R80, R100: every step keeps the coherence invariant: a command runs exactly while STATE is
TRANSMITTING, its request is the one outstanding but while it is held before its first statement (log entry 17, DESIGN
CHOICE), ERR is 0 to 4, POLLCNT is at most POLL_LIMIT. -/
def Obligations.EveryStepKeepsCoherence : Prop :=
  ∀ s t : State, Coherent s → step s = .next t → Coherent t

/-- Nothing has been issued at reset, so that the bus is legal there. -/
def Obligations.ResetBusIsLegal : Prop :=
  State.reset.trace = [] ∧ State.reset.request = none ∧ LegalBus State.reset

/-- R82, R83: every step keeps the bus legal: every request issued is one of the seven kinds, DUR 0 or one of the three
durations, and every response received is one the environment may give. R102: no step takes an issued request out of the
trace; that one abandoned by a power-on reset stays in it is the model's deduction (log entry 20, DEDUCED). -/
def Obligations.EveryStepKeepsTheBusLegal : Prop :=
  ∀ s t : State, Coherent s → LegalBus s → step s = .next t → LegalBus t ∧ issued s <+: issued t

/-- R242, R213, R31: a step that leads from FAILED to IDLE is a RESET, and a command that started in FAILED and ends in
IDLE is a RESET. -/
def Obligations.OnlyResetLeavesFailed : Prop :=
  ∀ s t : State, Coherent s → step s = .next t → t.proto = .idle →
    (s.proto = .failed → ∃ ins, s.inputs = .hostWrite 0 0x0200 :: ins) ∧
    (∀ q, s.seq = some q → q.origin = .failed → q.cmd = .reset)

/-- R63, R80, R236, R241: while a command runs, at an outstanding request or held, nothing the host does changes the engine
but a power-on reset: a read leaves it as it is, a CMD write is refused. An answer, and the engine's own going on after it
was held, are not of the host. -/
def Obligations.RunningCommandIsExclusive : Prop :=
  ∀ (s t : State) (x : Input) (ins : List Input), s.proto = .transmitting → s.inputs = x :: ins →
    (∀ d, x ≠ .answer d) → (∀ d, x ≠ .answerHeld d) → x ≠ .proceed → x ≠ .por → step s = .next t →
    (∃ idx, x = .hostRead idx) ∧
    t = { s with inputs := ins, reads := t.reads, draws := t.draws }

/-- R215, R200: the engine's own failures are no faults: in the states a run reaches, a step faults only on an answer when
no request waits for one, none being outstanding or the one that is having its response already (the model's own stop, log
entry 8). -/
def Obligations.FaultsOnlyOnUnsolicitedAnswers : Prop :=
  ∀ (s : State) (f : Fault), Coherent s → step s = .fault f →
    f = .unsolicitedAnswer ∧ (s.request = none ∨ (pendingReply s).isSome = true) ∧
      ∃ d ins, s.inputs = .answer d :: ins ∨ s.inputs = .answerHeld d :: ins

/-- A run that has ended (R237) stays as it is: that a step with no event leaves the state is the model's deduction from
R113 and R232 (log entry 4, DEDUCED). -/
def Obligations.EndedRunStays : Prop :=
  ∀ s : State, Ended s → step s = .next s
end

