-- ==== Sys2Proof/Laws/State.lean ====
section
/-! SUPPORT. One lemma per field per shared update, so that no proof unfolds a record update. -/

namespace Sys2Proof.Machine

open Sys2Proof

/-! ### `recordEvent` -/

@[simp] theorem recordEvent_proto (r : Request) (p : Word) (s : State) : (recordEvent r p s).proto = s.proto := rfl

@[simp] theorem recordEvent_err (r : Request) (p : Word) (s : State) : (recordEvent r p s).err = s.err := rfl

@[simp] theorem recordEvent_crc (r : Request) (p : Word) (s : State) : (recordEvent r p s).crc = s.crc := rfl

@[simp] theorem recordEvent_pollcnt (r : Request) (p : Word) (s : State) : (recordEvent r p s).pollcnt = s.pollcnt := rfl

@[simp] theorem recordEvent_value (r : Request) (p : Word) (s : State) : (recordEvent r p s).value = s.value := rfl

@[simp] theorem recordEvent_tempRaw (r : Request) (p : Word) (s : State) : (recordEvent r p s).tempRaw = s.tempRaw := rfl

@[simp] theorem recordEvent_humRaw (r : Request) (p : Word) (s : State) : (recordEvent r p s).humRaw = s.humRaw := rfl

@[simp] theorem recordEvent_faultInfo (r : Request) (p : Word) (s : State) : (recordEvent r p s).faultInfo = s.faultInfo := rfl

@[simp] theorem recordEvent_clk (r : Request) (p : Word) (s : State) : (recordEvent r p s).clk = s.clk := rfl

@[simp] theorem recordEvent_dat (r : Request) (p : Word) (s : State) : (recordEvent r p s).dat = s.dat := rfl

@[simp] theorem recordEvent_seq (r : Request) (p : Word) (s : State) : (recordEvent r p s).seq = s.seq := rfl

@[simp] theorem recordEvent_request (r : Request) (p : Word) (s : State) : (recordEvent r p s).request = none := rfl

@[simp] theorem recordEvent_params (r : Request) (p : Word) (s : State) : (recordEvent r p s).params = s.params := rfl

@[simp] theorem recordEvent_inputs (r : Request) (p : Word) (s : State) : (recordEvent r p s).inputs = s.inputs := rfl

@[simp] theorem recordEvent_trace (r : Request) (p : Word) (s : State) : (recordEvent r p s).trace = { request := r.word, response := some p } :: s.trace := rfl

@[simp] theorem recordEvent_reads (r : Request) (p : Word) (s : State) : (recordEvent r p s).reads = s.reads := rfl

@[simp] theorem recordEvent_draws (r : Request) (p : Word) (s : State) : (recordEvent r p s).draws = s.draws := rfl

/-! ### `present` -/

@[simp] theorem present_proto (r : Request) (s : State) : (present r s).proto = s.proto := rfl

@[simp] theorem present_err (r : Request) (s : State) : (present r s).err = s.err := rfl

@[simp] theorem present_crc (r : Request) (s : State) : (present r s).crc = s.crc := rfl

@[simp] theorem present_pollcnt (r : Request) (s : State) : (present r s).pollcnt = s.pollcnt := rfl

@[simp] theorem present_value (r : Request) (s : State) : (present r s).value = s.value := rfl

@[simp] theorem present_tempRaw (r : Request) (s : State) : (present r s).tempRaw = s.tempRaw := rfl

@[simp] theorem present_humRaw (r : Request) (s : State) : (present r s).humRaw = s.humRaw := rfl

@[simp] theorem present_faultInfo (r : Request) (s : State) : (present r s).faultInfo = s.faultInfo := rfl

@[simp] theorem present_clk (r : Request) (s : State) : (present r s).clk = s.clk := rfl

@[simp] theorem present_dat (r : Request) (s : State) : (present r s).dat = s.dat := rfl

@[simp] theorem present_seq (r : Request) (s : State) : (present r s).seq = s.seq := rfl

@[simp] theorem present_request (r : Request) (s : State) : (present r s).request = some r.word := rfl

@[simp] theorem present_params (r : Request) (s : State) : (present r s).params = s.params := rfl

@[simp] theorem present_inputs (r : Request) (s : State) : (present r s).inputs = s.inputs := rfl

@[simp] theorem present_trace (r : Request) (s : State) : (present r s).trace = s.trace := rfl

@[simp] theorem present_reads (r : Request) (s : State) : (present r s).reads = s.reads := rfl

@[simp] theorem present_draws (r : Request) (s : State) : (present r s).draws = s.draws := rfl

/-! ### `lineDone` -/

@[simp] theorem lineDone_proto (r : Request) (l : Bool) (s : State) : (lineDone r l s).proto = s.proto := by cases r <;> rfl

@[simp] theorem lineDone_err (r : Request) (l : Bool) (s : State) : (lineDone r l s).err = s.err := by cases r <;> rfl

@[simp] theorem lineDone_crc (r : Request) (l : Bool) (s : State) : (lineDone r l s).crc = s.crc := by cases r <;> rfl

@[simp] theorem lineDone_pollcnt (r : Request) (l : Bool) (s : State) : (lineDone r l s).pollcnt = s.pollcnt := by cases r <;> rfl

@[simp] theorem lineDone_value (r : Request) (l : Bool) (s : State) : (lineDone r l s).value = s.value := by cases r <;> rfl

@[simp] theorem lineDone_tempRaw (r : Request) (l : Bool) (s : State) : (lineDone r l s).tempRaw = s.tempRaw := by cases r <;> rfl

@[simp] theorem lineDone_humRaw (r : Request) (l : Bool) (s : State) : (lineDone r l s).humRaw = s.humRaw := by cases r <;> rfl

@[simp] theorem lineDone_faultInfo (r : Request) (l : Bool) (s : State) : (lineDone r l s).faultInfo = s.faultInfo := by cases r <;> rfl

@[simp] theorem lineDone_request (r : Request) (l : Bool) (s : State) : (lineDone r l s).request = s.request := by cases r <;> rfl

@[simp] theorem lineDone_params (r : Request) (l : Bool) (s : State) : (lineDone r l s).params = s.params := by cases r <;> rfl

@[simp] theorem lineDone_inputs (r : Request) (l : Bool) (s : State) : (lineDone r l s).inputs = s.inputs := by cases r <;> rfl

@[simp] theorem lineDone_trace (r : Request) (l : Bool) (s : State) : (lineDone r l s).trace = s.trace := by cases r <;> rfl

@[simp] theorem lineDone_reads (r : Request) (l : Bool) (s : State) : (lineDone r l s).reads = s.reads := by cases r <;> rfl

@[simp] theorem lineDone_draws (r : Request) (l : Bool) (s : State) : (lineDone r l s).draws = s.draws := by cases r <;> rfl

/-! ### `lineFailed` -/

@[simp] theorem lineFailed_proto (r : Request) (s : State) : (lineFailed r s).proto = s.proto := by cases r <;> rfl

@[simp] theorem lineFailed_err (r : Request) (s : State) : (lineFailed r s).err = s.err := by cases r <;> rfl

@[simp] theorem lineFailed_crc (r : Request) (s : State) : (lineFailed r s).crc = s.crc := by cases r <;> rfl

@[simp] theorem lineFailed_pollcnt (r : Request) (s : State) : (lineFailed r s).pollcnt = s.pollcnt := by cases r <;> rfl

@[simp] theorem lineFailed_value (r : Request) (s : State) : (lineFailed r s).value = s.value := by cases r <;> rfl

@[simp] theorem lineFailed_tempRaw (r : Request) (s : State) : (lineFailed r s).tempRaw = s.tempRaw := by cases r <;> rfl

@[simp] theorem lineFailed_humRaw (r : Request) (s : State) : (lineFailed r s).humRaw = s.humRaw := by cases r <;> rfl

@[simp] theorem lineFailed_faultInfo (r : Request) (s : State) : (lineFailed r s).faultInfo = s.faultInfo := by cases r <;> rfl

@[simp] theorem lineFailed_seq (r : Request) (s : State) : (lineFailed r s).seq = s.seq := by cases r <;> rfl

@[simp] theorem lineFailed_request (r : Request) (s : State) : (lineFailed r s).request = s.request := by cases r <;> rfl

@[simp] theorem lineFailed_params (r : Request) (s : State) : (lineFailed r s).params = s.params := by cases r <;> rfl

@[simp] theorem lineFailed_inputs (r : Request) (s : State) : (lineFailed r s).inputs = s.inputs := by cases r <;> rfl

@[simp] theorem lineFailed_trace (r : Request) (s : State) : (lineFailed r s).trace = s.trace := by cases r <;> rfl

@[simp] theorem lineFailed_reads (r : Request) (s : State) : (lineFailed r s).reads = s.reads := by cases r <;> rfl

@[simp] theorem lineFailed_draws (r : Request) (s : State) : (lineFailed r s).draws = s.draws := by cases r <;> rfl

/-! ### `raise` -/

@[simp] theorem raise_proto (e : Failure) (s : State) : (raise e s).proto = failureState (s.seq.map Seq.cmd) := rfl

@[simp] theorem raise_err (e : Failure) (s : State) : (raise e s).err = e.code := rfl

@[simp] theorem raise_crc (e : Failure) (s : State) : (raise e s).crc = if inHandshake s then 0x00 else s.crc := rfl

@[simp] theorem raise_pollcnt (e : Failure) (s : State) : (raise e s).pollcnt = s.pollcnt := rfl

@[simp] theorem raise_value (e : Failure) (s : State) : (raise e s).value = s.value := rfl

@[simp] theorem raise_tempRaw (e : Failure) (s : State) : (raise e s).tempRaw = s.tempRaw := rfl

@[simp] theorem raise_humRaw (e : Failure) (s : State) : (raise e s).humRaw = s.humRaw := rfl

@[simp] theorem raise_faultInfo (e : Failure) (s : State) : (raise e s).faultInfo = e.info := rfl

@[simp] theorem raise_clk (e : Failure) (s : State) : (raise e s).clk = s.clk := rfl

@[simp] theorem raise_dat (e : Failure) (s : State) : (raise e s).dat = s.dat := rfl

@[simp] theorem raise_seq (e : Failure) (s : State) : (raise e s).seq = none := rfl

@[simp] theorem raise_request (e : Failure) (s : State) : (raise e s).request = none := rfl

@[simp] theorem raise_params (e : Failure) (s : State) : (raise e s).params = s.params := rfl

@[simp] theorem raise_inputs (e : Failure) (s : State) : (raise e s).inputs = s.inputs := rfl

@[simp] theorem raise_trace (e : Failure) (s : State) : (raise e s).trace = s.trace := rfl

@[simp] theorem raise_reads (e : Failure) (s : State) : (raise e s).reads = s.reads := rfl

@[simp] theorem raise_draws (e : Failure) (s : State) : (raise e s).draws = s.draws := rfl

/-! ### `awaitAnswer` -/

@[simp] theorem awaitAnswer_proto (r : Request) (q : Seq) (s : State) : (awaitAnswer r q s).proto = s.proto := rfl

@[simp] theorem awaitAnswer_err (r : Request) (q : Seq) (s : State) : (awaitAnswer r q s).err = s.err := rfl

@[simp] theorem awaitAnswer_crc (r : Request) (q : Seq) (s : State) : (awaitAnswer r q s).crc = s.crc := rfl

@[simp] theorem awaitAnswer_pollcnt (r : Request) (q : Seq) (s : State) : (awaitAnswer r q s).pollcnt = s.pollcnt := rfl

@[simp] theorem awaitAnswer_value (r : Request) (q : Seq) (s : State) : (awaitAnswer r q s).value = s.value := rfl

@[simp] theorem awaitAnswer_tempRaw (r : Request) (q : Seq) (s : State) : (awaitAnswer r q s).tempRaw = s.tempRaw := rfl

@[simp] theorem awaitAnswer_humRaw (r : Request) (q : Seq) (s : State) : (awaitAnswer r q s).humRaw = s.humRaw := rfl

@[simp] theorem awaitAnswer_faultInfo (r : Request) (q : Seq) (s : State) : (awaitAnswer r q s).faultInfo = s.faultInfo := rfl

@[simp] theorem awaitAnswer_clk (r : Request) (q : Seq) (s : State) : (awaitAnswer r q s).clk = s.clk := rfl

@[simp] theorem awaitAnswer_dat (r : Request) (q : Seq) (s : State) : (awaitAnswer r q s).dat = s.dat := rfl

@[simp] theorem awaitAnswer_seq (r : Request) (q : Seq) (s : State) : (awaitAnswer r q s).seq = some q := rfl

@[simp] theorem awaitAnswer_request (r : Request) (q : Seq) (s : State) : (awaitAnswer r q s).request = some r.word := rfl

@[simp] theorem awaitAnswer_params (r : Request) (q : Seq) (s : State) : (awaitAnswer r q s).params = s.params := rfl

@[simp] theorem awaitAnswer_inputs (r : Request) (q : Seq) (s : State) : (awaitAnswer r q s).inputs = s.inputs := rfl

@[simp] theorem awaitAnswer_trace (r : Request) (q : Seq) (s : State) : (awaitAnswer r q s).trace = s.trace := rfl

@[simp] theorem awaitAnswer_reads (r : Request) (q : Seq) (s : State) : (awaitAnswer r q s).reads = s.reads := rfl

@[simp] theorem awaitAnswer_draws (r : Request) (q : Seq) (s : State) : (awaitAnswer r q s).draws = s.draws := rfl

/-! ### `writeResults` -/

@[simp] theorem writeResults_proto (q : Seq) (s : State) : (writeResults q s).proto = s.proto := by
  unfold writeResults; split <;> rfl

@[simp] theorem writeResults_err (q : Seq) (s : State) : (writeResults q s).err = s.err := by
  unfold writeResults; split <;> rfl

@[simp] theorem writeResults_crc (q : Seq) (s : State) : (writeResults q s).crc = s.crc := by
  unfold writeResults; split <;> rfl

@[simp] theorem writeResults_pollcnt (q : Seq) (s : State) : (writeResults q s).pollcnt = s.pollcnt := by
  unfold writeResults; split <;> rfl

@[simp] theorem writeResults_faultInfo (q : Seq) (s : State) : (writeResults q s).faultInfo = s.faultInfo := by
  unfold writeResults; split <;> rfl

@[simp] theorem writeResults_clk (q : Seq) (s : State) : (writeResults q s).clk = s.clk := by
  unfold writeResults; split <;> rfl

@[simp] theorem writeResults_dat (q : Seq) (s : State) : (writeResults q s).dat = s.dat := by
  unfold writeResults; split <;> rfl

@[simp] theorem writeResults_seq (q : Seq) (s : State) : (writeResults q s).seq = s.seq := by
  unfold writeResults; split <;> rfl

@[simp] theorem writeResults_request (q : Seq) (s : State) : (writeResults q s).request = s.request := by
  unfold writeResults; split <;> rfl

@[simp] theorem writeResults_params (q : Seq) (s : State) : (writeResults q s).params = s.params := by
  unfold writeResults; split <;> rfl

@[simp] theorem writeResults_inputs (q : Seq) (s : State) : (writeResults q s).inputs = s.inputs := by
  unfold writeResults; split <;> rfl

@[simp] theorem writeResults_trace (q : Seq) (s : State) : (writeResults q s).trace = s.trace := by
  unfold writeResults; split <;> rfl

@[simp] theorem writeResults_reads (q : Seq) (s : State) : (writeResults q s).reads = s.reads := by
  unfold writeResults; split <;> rfl

@[simp] theorem writeResults_draws (q : Seq) (s : State) : (writeResults q s).draws = s.draws := by
  unfold writeResults; split <;> rfl

/-! ### `complete` -/

@[simp] theorem complete_proto (q : Seq) (s : State) : (complete q s).proto = successState q.cmd q.origin := rfl

@[simp] theorem complete_err (q : Seq) (s : State) : (complete q s).err = 0 := rfl

@[simp] theorem complete_value (q : Seq) (s : State) : (complete q s).value = (writeResults q s).value := rfl

@[simp] theorem complete_tempRaw (q : Seq) (s : State) : (complete q s).tempRaw = (writeResults q s).tempRaw := rfl

@[simp] theorem complete_humRaw (q : Seq) (s : State) : (complete q s).humRaw = (writeResults q s).humRaw := rfl

@[simp] theorem complete_faultInfo (q : Seq) (s : State) : (complete q s).faultInfo = 0x0000 := rfl

@[simp] theorem complete_seq (q : Seq) (s : State) : (complete q s).seq = none := rfl

@[simp] theorem complete_request (q : Seq) (s : State) : (complete q s).request = none := rfl

@[simp] theorem complete_crc (q : Seq) (s : State) : (complete q s).crc = s.crc := writeResults_crc q s

@[simp] theorem complete_pollcnt (q : Seq) (s : State) : (complete q s).pollcnt = s.pollcnt := writeResults_pollcnt q s

@[simp] theorem complete_clk (q : Seq) (s : State) : (complete q s).clk = s.clk := writeResults_clk q s

@[simp] theorem complete_dat (q : Seq) (s : State) : (complete q s).dat = s.dat := writeResults_dat q s

@[simp] theorem complete_params (q : Seq) (s : State) : (complete q s).params = s.params := writeResults_params q s

@[simp] theorem complete_inputs (q : Seq) (s : State) : (complete q s).inputs = s.inputs := writeResults_inputs q s

@[simp] theorem complete_trace (q : Seq) (s : State) : (complete q s).trace = s.trace := writeResults_trace q s

@[simp] theorem complete_reads (q : Seq) (s : State) : (complete q s).reads = s.reads := writeResults_reads q s

@[simp] theorem complete_draws (q : Seq) (s : State) : (complete q s).draws = s.draws := writeResults_draws q s

/-! ### `beginCommand` -/

@[simp] theorem beginCommand_proto (i : Instr) (s : State) : (beginCommand i s).proto = .transmitting := rfl

@[simp] theorem beginCommand_err (i : Instr) (s : State) : (beginCommand i s).err = s.err := rfl

@[simp] theorem beginCommand_crc (i : Instr) (s : State) : (beginCommand i s).crc = s.crc := rfl

@[simp] theorem beginCommand_pollcnt (i : Instr) (s : State) : (beginCommand i s).pollcnt = s.pollcnt := rfl

@[simp] theorem beginCommand_value (i : Instr) (s : State) : (beginCommand i s).value = s.value := rfl

@[simp] theorem beginCommand_tempRaw (i : Instr) (s : State) : (beginCommand i s).tempRaw = s.tempRaw := rfl

@[simp] theorem beginCommand_humRaw (i : Instr) (s : State) : (beginCommand i s).humRaw = s.humRaw := rfl

@[simp] theorem beginCommand_faultInfo (i : Instr) (s : State) : (beginCommand i s).faultInfo = s.faultInfo := rfl

@[simp] theorem beginCommand_clk (i : Instr) (s : State) : (beginCommand i s).clk = s.clk := rfl

@[simp] theorem beginCommand_dat (i : Instr) (s : State) : (beginCommand i s).dat = s.dat := rfl

@[simp] theorem beginCommand_seq (i : Instr) (s : State) : (beginCommand i s).seq = some (seqStart i s.proto) := rfl

@[simp] theorem beginCommand_request (i : Instr) (s : State) : (beginCommand i s).request = none := rfl

@[simp] theorem beginCommand_params (i : Instr) (s : State) : (beginCommand i s).params = s.params := rfl

@[simp] theorem beginCommand_inputs (i : Instr) (s : State) : (beginCommand i s).inputs = s.inputs := rfl

@[simp] theorem beginCommand_trace (i : Instr) (s : State) : (beginCommand i s).trace = s.trace := rfl

@[simp] theorem beginCommand_reads (i : Instr) (s : State) : (beginCommand i s).reads = s.reads := rfl

@[simp] theorem beginCommand_draws (i : Instr) (s : State) : (beginCommand i s).draws = s.draws := rfl

/-! ### `recordRead` -/

@[simp] theorem recordRead_proto (i : RegIndex) (v : Word) (s : State) : (recordRead i v s).proto = s.proto := rfl

@[simp] theorem recordRead_err (i : RegIndex) (v : Word) (s : State) : (recordRead i v s).err = s.err := rfl

@[simp] theorem recordRead_crc (i : RegIndex) (v : Word) (s : State) : (recordRead i v s).crc = s.crc := rfl

@[simp] theorem recordRead_pollcnt (i : RegIndex) (v : Word) (s : State) : (recordRead i v s).pollcnt = s.pollcnt := rfl

@[simp] theorem recordRead_value (i : RegIndex) (v : Word) (s : State) : (recordRead i v s).value = s.value := rfl

@[simp] theorem recordRead_tempRaw (i : RegIndex) (v : Word) (s : State) : (recordRead i v s).tempRaw = s.tempRaw := rfl

@[simp] theorem recordRead_humRaw (i : RegIndex) (v : Word) (s : State) : (recordRead i v s).humRaw = s.humRaw := rfl

@[simp] theorem recordRead_faultInfo (i : RegIndex) (v : Word) (s : State) : (recordRead i v s).faultInfo = s.faultInfo := rfl

@[simp] theorem recordRead_clk (i : RegIndex) (v : Word) (s : State) : (recordRead i v s).clk = s.clk := rfl

@[simp] theorem recordRead_dat (i : RegIndex) (v : Word) (s : State) : (recordRead i v s).dat = s.dat := rfl

@[simp] theorem recordRead_seq (i : RegIndex) (v : Word) (s : State) : (recordRead i v s).seq = s.seq := rfl

@[simp] theorem recordRead_request (i : RegIndex) (v : Word) (s : State) : (recordRead i v s).request = s.request := rfl

@[simp] theorem recordRead_params (i : RegIndex) (v : Word) (s : State) : (recordRead i v s).params = s.params := rfl

@[simp] theorem recordRead_inputs (i : RegIndex) (v : Word) (s : State) : (recordRead i v s).inputs = s.inputs := rfl

@[simp] theorem recordRead_trace (i : RegIndex) (v : Word) (s : State) : (recordRead i v s).trace = s.trace := rfl

@[simp] theorem recordRead_reads (i : RegIndex) (v : Word) (s : State) : (recordRead i v s).reads = { idx := i, value := v } :: s.reads := rfl

@[simp] theorem recordRead_draws (i : RegIndex) (v : Word) (s : State) : (recordRead i v s).draws = s.draws := rfl

/-! ### `powerOnReset` -/

@[simp] theorem powerOnReset_proto (s : State) : (powerOnReset s).proto = State.reset.proto := rfl

@[simp] theorem powerOnReset_err (s : State) : (powerOnReset s).err = State.reset.err := rfl

@[simp] theorem powerOnReset_crc (s : State) : (powerOnReset s).crc = State.reset.crc := rfl

@[simp] theorem powerOnReset_pollcnt (s : State) : (powerOnReset s).pollcnt = State.reset.pollcnt := rfl

@[simp] theorem powerOnReset_value (s : State) : (powerOnReset s).value = State.reset.value := rfl

@[simp] theorem powerOnReset_tempRaw (s : State) : (powerOnReset s).tempRaw = State.reset.tempRaw := rfl

@[simp] theorem powerOnReset_humRaw (s : State) : (powerOnReset s).humRaw = State.reset.humRaw := rfl

@[simp] theorem powerOnReset_faultInfo (s : State) : (powerOnReset s).faultInfo = State.reset.faultInfo := rfl

@[simp] theorem powerOnReset_clk (s : State) : (powerOnReset s).clk = State.reset.clk := rfl

@[simp] theorem powerOnReset_dat (s : State) : (powerOnReset s).dat = State.reset.dat := rfl

@[simp] theorem powerOnReset_seq (s : State) : (powerOnReset s).seq = State.reset.seq := rfl

@[simp] theorem powerOnReset_request (s : State) : (powerOnReset s).request = State.reset.request := rfl

@[simp] theorem powerOnReset_params (s : State) : (powerOnReset s).params = s.params := rfl

@[simp] theorem powerOnReset_inputs (s : State) : (powerOnReset s).inputs = s.inputs := rfl

@[simp] theorem powerOnReset_trace (s : State) : (powerOnReset s).trace = outstandingEvent s ++ s.trace := rfl

@[simp] theorem powerOnReset_reads (s : State) : (powerOnReset s).reads = s.reads := rfl

@[simp] theorem powerOnReset_draws (s : State) : (powerOnReset s).draws = s.draws := rfl

/-! ### The pending response -/

/-- With no command running there is no pending response. -/
theorem pendingReply_none (s : State) (h : s.seq = none) : pendingReply s = none := by simp [pendingReply, h]

/-- The running command holds the pending response. -/
theorem pendingReply_some (s : State) (q : Seq) (h : s.seq = some q) : pendingReply s = q.reply := by simp [pendingReply, h]

/-! ### `outstandingEvent` and `busTrace` -/

theorem outstandingEvent_none (s : State) (h : s.request = none) : outstandingEvent s = [] := by simp [outstandingEvent, h]

theorem outstandingEvent_some (s : State) (w : ReqWord) (h : s.request = some w) :
    outstandingEvent s = [{ request := w, response := pendingReply s }] := by simp [outstandingEvent, h]

/-- With nothing outstanding the bus trace is what `trace` holds (R102). -/
theorem busTrace_none (s : State) (h : s.request = none) : busTrace s = s.trace.reverse := by
  simp [busTrace, outstandingEvent_none s h]

/-- The outstanding request is the bus trace's last event (R102), with its response if the engine has received one. -/
theorem busTrace_some (s : State) (w : ReqWord) (h : s.request = some w) :
    busTrace s = s.trace.reverse ++ [{ request := w, response := pendingReply s }] := by
  simp [busTrace, outstandingEvent_some s w h]

/-- A power-on reset takes nothing out of the bus trace and adds nothing to it (R102, R231). -/
@[simp] theorem busTrace_powerOnReset (s : State) : busTrace (powerOnReset s) = busTrace s := rfl

/-! ### `Seq` -/

@[simp] theorem seqNext_cmd (q : Seq) : (seqNext q).cmd = q.cmd := rfl

@[simp] theorem seqNext_origin (q : Seq) : (seqNext q).origin = q.origin := rfl

@[simp] theorem seqNext_byte (q : Seq) : (seqNext q).byte = q.byte := rfl

@[simp] theorem seqNext_hi (q : Seq) : (seqNext q).hi = q.hi := rfl

@[simp] theorem seqNext_lo (q : Seq) : (seqNext q).lo = q.lo := rfl

@[simp] theorem seqNext_chk (q : Seq) : (seqNext q).chk = q.chk := rfl

@[simp] theorem seqNext_temp (q : Seq) : (seqNext q).temp = q.temp := rfl

@[simp] theorem seqNext_level (q : Seq) : (seqNext q).level = q.level := rfl

@[simp] theorem seqNext_reply (q : Seq) : (seqNext q).reply = q.reply := rfl

@[simp] theorem seqLoop_cmd (q : Seq) : (seqLoop q).cmd = q.cmd := rfl

@[simp] theorem seqLoop_origin (q : Seq) : (seqLoop q).origin = q.origin := rfl

@[simp] theorem seqLoop_byte (q : Seq) : (seqLoop q).byte = q.byte := rfl

@[simp] theorem seqLoop_hi (q : Seq) : (seqLoop q).hi = q.hi := rfl

@[simp] theorem seqLoop_lo (q : Seq) : (seqLoop q).lo = q.lo := rfl

@[simp] theorem seqLoop_chk (q : Seq) : (seqLoop q).chk = q.chk := rfl

@[simp] theorem seqLoop_temp (q : Seq) : (seqLoop q).temp = q.temp := rfl

@[simp] theorem seqLoop_level (q : Seq) : (seqLoop q).level = q.level := rfl

@[simp] theorem seqLoop_reply (q : Seq) : (seqLoop q).reply = q.reply := rfl

@[simp] theorem seqOrBit_cmd (i : Nat) (q : Seq) : (seqOrBit i q).cmd = q.cmd := rfl

@[simp] theorem seqOrBit_pos (i : Nat) (q : Seq) : (seqOrBit i q).pos = q.pos := rfl

@[simp] theorem seqOrBit_origin (i : Nat) (q : Seq) : (seqOrBit i q).origin = q.origin := rfl

@[simp] theorem seqOrBit_hi (i : Nat) (q : Seq) : (seqOrBit i q).hi = q.hi := rfl

@[simp] theorem seqOrBit_lo (i : Nat) (q : Seq) : (seqOrBit i q).lo = q.lo := rfl

@[simp] theorem seqOrBit_chk (i : Nat) (q : Seq) : (seqOrBit i q).chk = q.chk := rfl

@[simp] theorem seqOrBit_temp (i : Nat) (q : Seq) : (seqOrBit i q).temp = q.temp := rfl

@[simp] theorem seqOrBit_level (i : Nat) (q : Seq) : (seqOrBit i q).level = q.level := rfl

@[simp] theorem seqOrBit_reply (i : Nat) (q : Seq) : (seqOrBit i q).reply = q.reply := rfl

@[simp] theorem seqNext_pos (q : Seq) : (seqNext q).pos = q.pos + 1 := rfl

@[simp] theorem seqLoop_pos (q : Seq) : (seqLoop q).pos = q.pos - 2 := rfl

@[simp] theorem seqStart_cmd (i : Instr) (p : ProtoState) : (seqStart i p).cmd = i := rfl

@[simp] theorem seqStart_pos (i : Instr) (p : ProtoState) : (seqStart i p).pos = 0 := rfl

@[simp] theorem seqStart_origin (i : Instr) (p : ProtoState) : (seqStart i p).origin = p := rfl

@[simp] theorem seqStart_reply (i : Instr) (p : ProtoState) : (seqStart i p).reply = none := rfl

end Sys2Proof.Machine
end

