-- ==== Sys2Proof/Laws/Ops.lean ====
section
/-! SUPPORT. What each shared operation can do, said once: the response word, an answered request, the sequencer, the
drain of the answers, a command. -/

namespace Sys2Proof.Machine

open Sys2Proof

/-! ### Words -/

/-- A presented request word decodes to the request it presents. -/
@[simp] theorem decodeRequest_word (r : Request) : decodeRequest r.word = .ok r := by
  cases r with
  | wait d =>
    have hk : kindField (Request.wait d).word = 0x7 := by
      simp only [Request.word, kindField, Request.kind, Request.dur]
      exact BitVec.extractLsb'_append_eq_left
    have hd : durField (Request.wait d).word = d := by
      simp only [Request.word, durField, Request.kind, Request.dur]
      exact BitVec.extractLsb'_append_eq_right
    simp [decodeRequest, hk, hd]
  | _ => rfl

/-- The three fields of a response word (R83). -/
theorem responseWord_fields : ∀ (b : Byte) (f l : Bool), responseFail (responseWord b f l) = f ∧
    responseLevel (responseWord b f l) = l ∧ responseDetail (responseWord b f l) = b := by
  decide

/-- A response word's FAIL bit (R83, R111). -/
@[simp] theorem responseFail_respond (r : Request) (d : Draw) : responseFail (respond r d) = (d.fail && mayFail r) :=
  (responseWord_fields _ _ _).1

/-- A response word's LEVEL bit (R83). -/
@[simp] theorem responseLevel_respond (r : Request) (d : Draw) :
    responseLevel (respond r d) = (d.level && carriesLevel r) :=
  (responseWord_fields _ _ _).2.1

/-- A response word's DETAIL byte (R83). -/
@[simp] theorem responseDetail_respond (r : Request) (d : Draw) :
    responseDetail (respond r d) = if d.fail && mayFail r then d.detail else 0 :=
  (responseWord_fields _ _ _).2.2

/-! ### An answered request -/

/-- A request that succeeds: the trace and the line record, no failure (R101, R105 to R111). -/
theorem answerRequest_ok (r : Request) (d : Draw) (s : State) (h : (d.fail && mayFail r) = false) :
    answerRequest r d s = lineDone r (d.level && carriesLevel r) (recordEvent r (respond r d) s) := by
  simp [answerRequest, takeResponse, h]

/-- A request that fails: the trace, the line record UNKNOWN, then the failure (R101, R104). -/
theorem answerRequest_fail (r : Request) (d : Draw) (s : State) (hf : d.fail = true) (hr : mayFail r = true) :
    answerRequest r d s =
      raise (.pinOperation r.kind d.detail) (lineFailed r (recordEvent r (respond r d) s)) := by
  simp [answerRequest, takeResponse, hf, hr]

/-- An answered request leaves no command running, or the same command at the same position. -/
theorem answerRequest_seq (r : Request) (d : Draw) (s : State) :
    (answerRequest r d s).seq = none ∨
      (d.fail && mayFail r) = false ∧
        (answerRequest r d s).seq = s.seq.map fun q => if r = .sample then { q with level := d.level } else q := by
  cases h : d.fail && mayFail r with
  | true =>
    simp only [Bool.and_eq_true] at h
    exact .inl (by rw [answerRequest_fail r d s h.1 h.2]; rfl)
  | false =>
    refine .inr ⟨rfl, ?_⟩
    rw [answerRequest_ok r d s h]
    cases r <;> cases hs : s.seq <;> simp [lineDone, carriesLevel, recordEvent, hs]

/-- The row of a request, with an answer there (R101). -/
theorem busRequest_answer (r : Request) (s : State) (d : Draw) (ins : List Input) (h : s.inputs = .answer d :: ins) :
    busRequest r s = .next (answerRequest r d { s with inputs := ins }) := by
  simp [busRequest, h]

/-- A request's row never stops. -/
theorem busRequest_next (r : Request) (s : State) : ∃ t, busRequest r s = .next t := by
  unfold busRequest
  split <;> exact ⟨_, rfl⟩

/-! ### The sequencer -/

/-- One statement on, the rest of the text is the tail (R27). -/
theorem seqRest_seqNext (p : Params) (q : Seq) : seqRest p (seqNext q) = (seqRest p q).tail := by
  simp [seqRest]

/-- The statements that issue no request change CRC and POLLCNT at most, and stop at a completion, at a failure the bus
did not raise, or at a request (R27, R206, R207). -/
theorem advance_cases (l : List Stmt) : ∀ (q : Seq) (s : State), ∃ (q' : Seq) (c : Accum) (p : Byte),
    q'.cmd = q.cmd ∧ q'.origin = q.origin ∧
      (advance l q s = complete q' { s with crc := c, pollcnt := p } ∨
        (∃ e, advance l q s = raise e { s with crc := c, pollcnt := p, seq := some q' }) ∨
          ∃ r, advance l q s = awaitAnswer r q' { s with crc := c, pollcnt := p }) := by
  induction l with
  | nil => exact fun q s => ⟨q, s.crc, s.pollcnt, rfl, rfl, .inl rfl⟩
  | cons st rest ih =>
    intro q s
    have go : ∀ (q0 : Seq) (c0 : Accum) (p0 : Byte), q0.cmd = q.cmd → q0.origin = q.origin →
        ∃ (q' : Seq) (c : Accum) (p : Byte), q'.cmd = q.cmd ∧ q'.origin = q.origin ∧
          (advance rest (seqNext q0) { s with crc := c0, pollcnt := p0 } =
              complete q' { s with crc := c, pollcnt := p } ∨
            (∃ e, advance rest (seqNext q0) { s with crc := c0, pollcnt := p0 } =
              raise e { s with crc := c, pollcnt := p, seq := some q' }) ∨
              ∃ r, advance rest (seqNext q0) { s with crc := c0, pollcnt := p0 } =
                awaitAnswer r q' { s with crc := c, pollcnt := p }) := by
      intro q0 c0 p0 hc ho
      obtain ⟨q', c, p, h1, h2, h3⟩ := ih (seqNext q0) { s with crc := c0, pollcnt := p0 }
      exact ⟨q', c, p, h1.trans hc, h2.trans ho, h3⟩
    cases st with
    | bus r => exact ⟨q, s.crc, s.pollcnt, rfl, rfl, .inr (.inr ⟨r, rfl⟩)⟩
    | handshake r => exact ⟨q, s.crc, s.pollcnt, rfl, rfl, .inr (.inr ⟨r, rfl⟩)⟩
    | clearCrc => exact go q 0x00 s.pollcnt rfl rfl
    | checkAck v =>
      by_cases hl : q.level = true
      · exact ⟨q, s.crc, s.pollcnt, rfl, rfl, .inr (.inl ⟨.protocolNack v, by simp [advance, hl]⟩)⟩
      · simpa [advance, hl] using go q s.crc s.pollcnt rfl rfl
    | foldCrc v => exact go q (mutate s.params.poly s.crc v) s.pollcnt rfl rfl
    | loadPoll => exact go q s.crc s.params.pollLimit rfl rfl
    | pollTest =>
      by_cases hl : q.level = true
      · by_cases h0 : s.pollcnt - 1 = 0
        · exact ⟨q, s.crc, s.pollcnt - 1, rfl, rfl, .inr (.inl ⟨.measurementTimeout, by
          simp only [advance, hl, if_true]; rw [if_pos h0]⟩)⟩
        · exact ⟨seqLoop q, s.crc, s.pollcnt - 1, rfl, rfl,
            .inr (.inr ⟨.wait s.params.tPoll, by simp only [advance, hl, if_true]; rw [if_neg h0]⟩)⟩
      · simpa [advance, hl] using go q s.crc s.pollcnt rfl rfl
    | clearByte => exact go { q with byte := 0x00 } s.crc s.pollcnt rfl rfl
    | orBit i => exact go (seqOrBit i q) s.crc s.pollcnt rfl rfl
    | takeHi => exact go { q with hi := q.byte } (mutate s.params.poly s.crc q.byte) s.pollcnt rfl rfl
    | takeLo => exact go { q with lo := q.byte } (mutate s.params.poly s.crc q.byte) s.pollcnt rfl rfl
    | takeChk => exact go { q with chk := q.byte } s.crc s.pollcnt rfl rfl
    | compareCrc =>
      by_cases hm : s.crc = mirror q.chk
      · simpa [advance, ← hm] using go q s.crc s.pollcnt rfl rfl
      · exact ⟨q, s.crc, s.pollcnt, rfl, rfl, .inr (.inl ⟨.checksumMismatch s.crc q.chk, by simp [advance, hm]⟩)⟩
    | takeTemp => exact go { q with temp := composeRaw q.hi q.lo } s.crc s.pollcnt rfl rfl

/-- With no command running there is nothing to go on with. -/
theorem resume_none (s : State) (h : s.seq = none) : resume s = s := by simp [resume, h]

/-- A running command goes on with the statement after its request. -/
theorem resume_some (s : State) (q : Seq) (h : s.seq = some q) : resume s = advanceFrom (seqNext q) s := by
  simp [resume, h]

/-! ### The drain -/

/-- With nothing outstanding, no answer is taken. -/
theorem drain_idle (ins : List Input) (s : State) (h : s.request = none) : drain ins s = { s with inputs := ins } := by
  cases ins with
  | nil => rfl
  | cons x ins => cases x <;> simp [drain, h]

/-- The answer to the outstanding request is taken (R62). -/
theorem drain_answer (r : Request) (d : Draw) (ins : List Input) (s : State) (h : s.request = some r.word) :
    drain (.answer d :: ins) s = drain ins (resume (answerRequest r d s)) := by
  simp [drain, h]

/-- The induction over the answers, once: what taking the answer to an outstanding request keeps, and setting the events
keeps, the drain keeps. -/
theorem drain_keeps (P : State → Prop) (hin : ∀ s ins, P s → P { s with inputs := ins })
    (hans : ∀ (s : State) (w : ReqWord) (r : Request) (d : Draw), P s → s.request = some w → decodeRequest w = .ok r →
      P (resume (answerRequest r d s))) :
    ∀ (ins : List Input) (s : State), P s → P (drain ins s) := by
  intro ins
  induction ins with
  | nil => exact fun s h => hin s [] h
  | cons x ins ih =>
    intro s h
    cases x with
    | answer d =>
      cases hr : s.request with
      | none => simpa [drain, hr] using hin s _ h
      | some w =>
        cases hd : decodeRequest w with
        | ok r => simpa [drain, hr, hd] using ih _ (hans s w r d h hr hd)
        | error e => simpa [drain, hr, hd] using hin s _ h
    | hostWrite i v => exact hin s _ h
    | hostWriteHeld w => exact hin s _ h
    | hostRead i => exact hin s _ h
    | por => exact hin s _ h
    | answerHeld d => exact hin s _ h
    | proceed => exact hin s _ h

/-! ### A command -/

/-- A command the state admits runs (R80, R205). -/
theorem runCommand_admitted (i : Instr) (s : State) (h : admits i s.proto = true) :
    runCommand i s = .next (runOn (startCommand i s)) := by simp [runCommand, h]

/-- A command the state does not admit is refused (R80). -/
theorem runCommand_refused (i : Instr) (s : State) (h : admits i s.proto = false) :
    runCommand i s = .refused (.notAdmitted s.proto) := by simp [runCommand, h]

/-- If a command answers a next state, the state admitted it and it ran. -/
theorem runCommand_next (i : Instr) (s t : State) (h : runCommand i s = .next t) :
    admits i s.proto = true ∧ t = runOn (startCommand i s) := by
  unfold runCommand at h
  split at h
  · next ha => exact ⟨ha, by injection h with h; exact h.symm⟩
  · cases h

/-! ### The engine held -/

/-- A command the state admits is begun and held (R80, R205). -/
theorem holdCommand_admitted (i : Instr) (s : State) (h : admits i s.proto = true) :
    holdCommand i s = .next (beginCommand i s) := by simp [holdCommand, h]

/-- A command the state does not admit is refused, held or not (R80). -/
theorem holdCommand_refused (i : Instr) (s : State) (h : admits i s.proto = false) :
    holdCommand i s = .refused (.notAdmitted s.proto) := by simp [holdCommand, h]

/-- What an answer is for (R100, R103): there is an outstanding request, with no response yet. -/
theorem awaited_ok (s : State) (r : Request) (h : awaited s = .ok r) :
    ∃ w, s.request = some w ∧ decodeRequest w = .ok r ∧ pendingReply s = none := by
  unfold awaited at h
  split at h
  · cases h
  · next w hw =>
    split at h
    · cases h
    · next hp =>
      split at h
      · next hd => cases h; exact ⟨w, hw, hd, by simpa using hp⟩
      · cases h

/-- The outstanding request waits for an answer. -/
theorem awaited_word (s : State) (r : Request) (h : s.request = some r.word) (hp : pendingReply s = none) :
    awaited s = .ok r := by simp [awaited, h, hp]

/-- The engine, held, goes on: at a command not yet begun, at a response not yet acted on, or not at all (R27). -/
theorem proceed_cases (s : State) :
    (∃ q, s.seq = some q ∧ s.request = none ∧ proceed s = runOn (advanceFrom q s)) ∨
      (∃ q w p r, s.seq = some q ∧ s.request = some w ∧ q.reply = some p ∧ decodeRequest w = .ok r ∧
        proceed s = runOn (resume (takeResponse r p { s with seq := some { q with reply := none } }))) ∨
      proceed s = s := by
  unfold proceed
  split
  · exact .inr (.inr rfl)
  · next q hq =>
    split
    · next hr => exact .inl ⟨q, hq, hr, rfl⟩
    · next w hw =>
      split
      · next p r hp hd => exact .inr (.inl ⟨q, w, p, r, hq, hw, hp, hd, rfl⟩)
      · exact .inr (.inr rfl)

/-- Going on after a command was held at its start is starting it (R205). -/
theorem proceed_beginCommand (i : Instr) (s : State) : proceed (beginCommand i s) = runOn (startCommand i s) := rfl

/-- Going on after a response was held is taking it, the request answered. -/
theorem proceed_reply (r : Request) (p : Word) (q : Seq) (s : State) (hw : s.request = some r.word)
    (hs : s.seq = some { q with reply := some p }) :
    proceed s = runOn (resume (takeResponse r p { s with seq := some { q with reply := none } })) := by
  simp [proceed, hw, hs]

/-! ### The parameters never change (R6) -/

/-- No response changes the parameters. -/
@[simp] theorem takeResponse_params (r : Request) (p : Word) (s : State) : (takeResponse r p s).params = s.params := by
  unfold takeResponse
  dsimp only
  split <;> simp

/-- No answered request changes the parameters. -/
@[simp] theorem answerRequest_params (r : Request) (d : Draw) (s : State) : (answerRequest r d s).params = s.params :=
  takeResponse_params r (respond r d) s

/-- No statement changes the parameters. -/
@[simp] theorem advance_params (l : List Stmt) (q : Seq) (s : State) : (advance l q s).params = s.params := by
  obtain ⟨q', c, p, -, -, h | ⟨e, h⟩ | ⟨r, h⟩⟩ := advance_cases l q s <;> simp [h]

/-- Going on with a command changes no parameter. -/
@[simp] theorem resume_params (s : State) : (resume s).params = s.params := by
  unfold resume
  split <;> simp [advanceFrom]

/-- Taking answers changes no parameter. -/
@[simp] theorem drain_params (ins : List Input) (s : State) : (drain ins s).params = s.params :=
  drain_keeps (fun t => t.params = s.params) (fun _ _ h => h) (fun t _ r d h _ _ => by simpa using h) ins s rfl

/-- No command changes a parameter. -/
theorem runCommand_params (i : Instr) (s t : State) (h : runCommand i s = .next t) : t.params = s.params := by
  rw [(runCommand_next i s t h).2]
  simp [runOn, startCommand, advanceFrom]

/-- Going on changes no parameter. -/
@[simp] theorem proceed_params (s : State) : (proceed s).params = s.params := by
  obtain ⟨q, -, -, h⟩ | ⟨q, w, p, r, -, -, -, -, h⟩ | h := proceed_cases s <;> simp [h, runOn, advanceFrom]

end Sys2Proof.Machine
end

