-- ==== Sys2Proof/Laws/PerInstr.lean ====
section
/-! SUPPORT. A statement per instruction: its word lies in its row of spec/opcode_table.json, the bits the row fixes being
the row's. -/

namespace Sys2Proof.Laws.TableRow

open Sys2Proof

/-- The bits a row of the opcode table fixes, and the value it fixes them to. -/
structure Row where
  mask : Nat
  fixed : Nat
deriving DecidableEq, Repr

/-- The row of an instruction, as spec/opcode_table.json gives its mask and match. -/
def rowOf : Instr → Row
  | .init => ⟨0xFFFF, 0x0100⟩
  | .reset => ⟨0xFFFF, 0x0200⟩
  | .getValue _ => ⟨0xFFFE, 0x1000⟩
  | .getValues => ⟨0xFFFF, 0x1100⟩
  | .tstart => ⟨0xFFFF, 0x2000⟩
  | .sendByte _ => ⟨0xFF00, 0x2100⟩
  | .readByte _ => ⟨0xFFFE, 0x2200⟩
  | .startMeas _ => ⟨0xFFFE, 0x3000⟩
  | .poll => ⟨0xFFFF, 0x3100⟩
  | .readMeas => ⟨0xFFFF, 0x3200⟩
  | .crcMutate _ => ⟨0xFF00, 0x4000⟩
  | .mirror _ => ⟨0xFF00, 0x4100⟩
  | .clkLow => ⟨0xFFFFFF, 0x100000⟩
  | .clkHigh => ⟨0xFFFFFF, 0x200000⟩
  | .datLow => ⟨0xFFFFFF, 0x300000⟩
  | .datHigh => ⟨0xFFFFFF, 0x400000⟩
  | .datRelease => ⟨0xFFFFFF, 0x500000⟩
  | .sample => ⟨0xFFFFFF, 0x600000⟩
  | .wait _ => ⟨0xF00000, 0x700000⟩

/-- The word of an instruction has the bits its row fixes, and no bit above its width. -/
def Statement (i : Instr) : Prop :=
  encode i &&& (rowOf i).mask = (rowOf i).fixed ∧ encode i < 2 ^ i.width

/-- A WAIT's word keeps its KIND above any duration. -/
theorem wait_word (d : Duration) : (Request.wait d).word &&& 0xF00000 = 0x700000 := by
  ext i hi
  simp only [Request.word, Request.kind, Request.dur, BitVec.getElem_and, BitVec.getElem_append]
  interval_cases i <;> simp

theorem init : Statement .init := ⟨by decide, by decide⟩
theorem reset : Statement .reset := ⟨by decide, by decide⟩
theorem getValue (k : Kind) : Statement (.getValue k) := by cases k <;> exact ⟨by decide, by decide⟩
theorem getValues : Statement .getValues := ⟨by decide, by decide⟩
theorem tstart : Statement .tstart := ⟨by decide, by decide⟩
theorem sendByte (b : Byte) : Statement (.sendByte b) :=
  ⟨by revert b; decide +kernel, by revert b; decide +kernel⟩
theorem readByte (a : Bool) : Statement (.readByte a) := by cases a <;> exact ⟨by decide, by decide⟩
theorem startMeas (k : Kind) : Statement (.startMeas k) := by cases k <;> exact ⟨by decide, by decide⟩
theorem poll : Statement .poll := ⟨by decide, by decide⟩
theorem readMeas : Statement .readMeas := ⟨by decide, by decide⟩
theorem crcMutate (b : Byte) : Statement (.crcMutate b) :=
  ⟨by revert b; decide +kernel, by revert b; decide +kernel⟩
theorem mirror (b : Byte) : Statement (.mirror b) :=
  ⟨by revert b; decide +kernel, by revert b; decide +kernel⟩
theorem clkLow : Statement .clkLow := ⟨by decide, by decide⟩
theorem clkHigh : Statement .clkHigh := ⟨by decide, by decide⟩
theorem datLow : Statement .datLow := ⟨by decide, by decide⟩
theorem datHigh : Statement .datHigh := ⟨by decide, by decide⟩
theorem datRelease : Statement .datRelease := ⟨by decide, by decide⟩
theorem sample : Statement .sample := ⟨by decide, by decide⟩
theorem wait (d : Duration) : Statement (.wait d) :=
  ⟨congrArg BitVec.toNat (wait_word d), (Request.wait d).word.isLt⟩

end Sys2Proof.Laws.TableRow
end

