-- ==== Sys2Proof/Laws/Sequence.lean ====
section
/-! SUPPORT. Running a stretch of an operation text whose requests are all answered with success: what it does is
`play`, and the drain of those answers is `play` of that stretch (10_state.md R27, 20_memory.md R62). -/

namespace Sys2Proof.Machine

open Sys2Proof

/-- CLK after a request that succeeded (R105, R106). -/
def clkAfter (r : Request) (c : ClkLevel) : ClkLevel :=
  match r with
  | .clkLow => .low
  | .clkHigh => .high
  | .datLow | .datHigh | .datRelease | .sample | .wait _ => c

/-- DAT after a request that succeeded (R107 to R109). -/
def datAfter (r : Request) (c : DatLevel) : DatLevel :=
  match r with
  | .datLow => .low
  | .datHigh => .high
  | .datRelease => .released
  | .clkLow | .clkHigh | .sample | .wait _ => c

/-- The sequencer's sampled level after a request that succeeded (R110). -/
def levelAfter (r : Request) (d : Draw) (q : Seq) : Seq :=
  match r with
  | .sample => { q with level := d.level }
  | .clkLow | .clkHigh | .datLow | .datHigh | .datRelease | .wait _ => q

/-- The engine after a request that succeeded, but for the sequencer (R101, R102). -/
def eventDone (r : Request) (d : Draw) (s : State) : State :=
  { s with
    clk := clkAfter r s.clk
    dat := datAfter r s.dat
    trace := { request := r.word, response := some (respond r d) } :: s.trace }

/-- What the statements read of SEQ and of the outstanding request is the position they are given: what the state holds
there before they run does not matter. -/
theorem advance_stale (l : List Stmt) : ∀ (q : Seq) (s : State) (x : Option Seq) (y : Option ReqWord),
    advance l q { s with seq := x, request := y } = advance l q s := by
  induction l with
  | nil =>
    intro q s x y
    simp only [advance, complete, writeResults]
    cases q.cmd <;> rfl
  | cons st rest ih =>
    intro q s x y
    cases st with
    | bus r => rfl
    | handshake r => rfl
    | clearCrc => exact ih _ { s with crc := 0x00 } x y
    | checkAck v => simp only [advance]; split; · rfl
                    · exact ih _ s x y
    | foldCrc v => exact ih _ { s with crc := mutate s.params.poly s.crc v } x y
    | loadPoll => exact ih _ { s with pollcnt := s.params.pollLimit } x y
    | pollTest =>
      simp only [advance]
      split
      · rfl
      · exact ih _ s x y
    | clearByte => exact ih _ s x y
    | orBit i => exact ih _ s x y
    | takeHi => exact ih _ { s with crc := mutate s.params.poly s.crc q.byte } x y
    | takeLo => exact ih _ { s with crc := mutate s.params.poly s.crc q.byte } x y
    | takeChk => exact ih _ s x y
    | compareCrc => simp only [advance]; split; · rfl
                    · exact ih _ s x y
    | takeTemp => exact ih _ s x y

/-- The sequencer at the next statement after a request that was answered has the rest of the text left. -/
theorem seqRest_levelAfter (p : Params) (r : Request) (d : Draw) (q : Seq) :
    seqRest p (seqNext (levelAfter r d q)) = (seqRest p q).tail := by
  cases r <;> simp [levelAfter, seqRest]

/-- The engine right after a request of the running command succeeds. -/
theorem answerRequest_await (r : Request) (d : Draw) (q : Seq) (s : State) (h : (d.fail && mayFail r) = false) :
    answerRequest r d (awaitAnswer r q s) =
      { eventDone r d s with seq := some (levelAfter r d q), request := none } := by
  rw [answerRequest_ok r d _ h]
  cases r with
  | sample => simp [lineDone, recordEvent, awaitAnswer, present, carriesLevel, eventDone, levelAfter, clkAfter, datAfter]
  | _ => rfl

/-- A request of the running command that is answered with success: the command goes on with the next statement. -/
theorem resume_answer_ok (r : Request) (d : Draw) (q : Seq) (s : State) (rest : List Stmt)
    (hr : (seqRest s.params q).tail = rest) (h : (d.fail && mayFail r) = false) :
    resume (answerRequest r d (awaitAnswer r q s)) = advance rest (seqNext (levelAfter r d q)) (eventDone r d s) := by
  rw [answerRequest_await r d q s h, resume_some _ (levelAfter r d q) rfl]
  show advance (seqRest s.params _) _ _ = _
  rw [seqRest_levelAfter, hr]
  exact advance_stale rest _ (eventDone r d s) _ _

/-- What a stretch of text does when its requests are answered, one draw each, with success; none when an answer is a
failure, a statement raises, the draws do not match the requests, or the stretch holds the poll loop's end. -/
def play : List Stmt → List Draw → Seq → State → Option (Seq × State)
  | [], [], q, s => some (q, s)
  | [], _ :: _, _, _ => none
  | .bus _ :: _, [], _, _ => none
  | .bus r :: l, d :: ds, q, s =>
    if d.fail && mayFail r then none else play l ds (seqNext (levelAfter r d q)) (eventDone r d s)
  | .handshake _ :: _, [], _, _ => none
  | .handshake r :: l, d :: ds, q, s =>
    if d.fail && mayFail r then none else play l ds (seqNext (levelAfter r d q)) (eventDone r d s)
  | .clearCrc :: l, ds, q, s => play l ds (seqNext q) { s with crc := 0x00 }
  | .checkAck _ :: l, ds, q, s => if q.level then none else play l ds (seqNext q) s
  | .foldCrc v :: l, ds, q, s => play l ds (seqNext q) { s with crc := mutate s.params.poly s.crc v }
  | .loadPoll :: l, ds, q, s => play l ds (seqNext q) { s with pollcnt := s.params.pollLimit }
  | .pollTest :: _, _, _, _ => none
  | .clearByte :: l, ds, q, s => play l ds (seqNext { q with byte := 0x00 }) s
  | .orBit i :: l, ds, q, s => play l ds (seqNext (seqOrBit i q)) s
  | .takeHi :: l, ds, q, s => play l ds (seqNext { q with hi := q.byte }) { s with crc := mutate s.params.poly s.crc q.byte }
  | .takeLo :: l, ds, q, s => play l ds (seqNext { q with lo := q.byte }) { s with crc := mutate s.params.poly s.crc q.byte }
  | .takeChk :: l, ds, q, s => play l ds (seqNext { q with chk := q.byte }) s
  | .compareCrc :: l, ds, q, s => if s.crc ≠ mirror q.chk then none else play l ds (seqNext q) s
  | .takeTemp :: l, ds, q, s => play l ds (seqNext { q with temp := composeRaw q.hi q.lo }) s

/-- The drain of the answers to a stretch of text is `play` of it: the command then stands at the rest of its text. -/
theorem drain_play (l2 : List Stmt) (ins : List Input) (l1 : List Stmt) :
    ∀ (ds : List Draw) (q q' : Seq) (s s' : State), seqRest s.params q = l1 ++ l2 → play l1 ds q s = some (q', s') →
      drain (answers ds ++ ins) (advance (l1 ++ l2) q s) = drain ins (advance l2 q' s') ∧
        seqRest s'.params q' = l2 ∧ s'.params = s.params ∧ q'.cmd = q.cmd ∧ q'.origin = q.origin := by
  induction l1 with
  | nil =>
    intro ds q q' s s' hr hp
    cases ds with
    | nil =>
      simp only [play, Option.some.injEq, Prod.mk.injEq] at hp
      obtain ⟨rfl, rfl⟩ := hp
      exact ⟨rfl, by simpa using hr, rfl, rfl, rfl⟩
    | cons d ds => simp [play] at hp
  | cons st l ih =>
    intro ds q q' s s' hr hp
    have tail : ∀ q0, q0.cmd = q.cmd → q0.pos = q.pos → seqRest s.params (seqNext q0) = l ++ l2 := by
      intro q0 hc hpos
      have : seqRest s.params (seqNext q0) = (seqRest s.params q).tail := by
        rw [seqRest_seqNext]
        simp [seqRest, hc, hpos]
      simpa [hr] using this
    have req : ∀ r (d : Draw) ds0, ds = d :: ds0 → (d.fail && mayFail r) = false →
        play l ds0 (seqNext (levelAfter r d q)) (eventDone r d s) = some (q', s') →
        drain (answers ds ++ ins) (awaitAnswer r q s) = drain ins (advance l2 q' s') ∧
          seqRest s'.params q' = l2 ∧ s'.params = s.params ∧ q'.cmd = q.cmd ∧ q'.origin = q.origin := by
      intro r d ds0 hds hf hpl
      subst hds
      have htail : (seqRest s.params q).tail = l ++ l2 := by simp [hr]
      have hgo := ih ds0 (seqNext (levelAfter r d q)) q' (eventDone r d s) s'
        (by show seqRest s.params _ = _; rw [seqRest_levelAfter, htail]) hpl
      refine ⟨?_, hgo.2.1, hgo.2.2.1, hgo.2.2.2.1.trans ?_, hgo.2.2.2.2.trans ?_⟩
      · rw [← hgo.1, ← resume_answer_ok r d q s (l ++ l2) htail hf]
        exact drain_answer r d _ _ rfl
      · cases r <;> rfl
      · cases r <;> rfl
    cases st with
    | bus r =>
      cases ds with
      | nil => simp [play] at hp
      | cons d ds =>
        cases hf : (d.fail && mayFail r) with
        | true => simp [play, hf] at hp
        | false => exact req r d ds rfl hf (by simpa [play, hf] using hp)
    | handshake r =>
      cases ds with
      | nil => simp [play] at hp
      | cons d ds =>
        cases hf : (d.fail && mayFail r) with
        | true => simp [play, hf] at hp
        | false => exact req r d ds rfl hf (by simpa [play, hf] using hp)
    | clearCrc => exact ih ds _ q' { s with crc := 0x00 } s' (tail q rfl rfl) (by simpa [play] using hp)
    | checkAck v =>
      cases hl : q.level with
      | true => simp [play, hl] at hp
      | false =>
        have := ih ds _ q' s s' (tail q rfl rfl) (by simpa [play, hl] using hp)
        simpa [advance, hl] using this
    | foldCrc v => exact ih ds _ q' { s with crc := mutate s.params.poly s.crc v } s' (tail q rfl rfl) (by simpa [play] using hp)
    | loadPoll => exact ih ds _ q' { s with pollcnt := s.params.pollLimit } s' (tail q rfl rfl) (by simpa [play] using hp)
    | pollTest => simp [play] at hp
    | clearByte => exact ih ds _ q' s s' (tail { q with byte := 0x00 } rfl rfl) (by simpa [play] using hp)
    | orBit i => exact ih ds _ q' s s' (tail (seqOrBit i q) rfl rfl) (by simpa [play] using hp)
    | takeHi =>
      exact ih ds _ q' { s with crc := mutate s.params.poly s.crc q.byte } s' (tail { q with hi := q.byte } rfl rfl)
        (by simpa [play] using hp)
    | takeLo =>
      exact ih ds _ q' { s with crc := mutate s.params.poly s.crc q.byte } s' (tail { q with lo := q.byte } rfl rfl)
        (by simpa [play] using hp)
    | takeChk => exact ih ds _ q' s s' (tail { q with chk := q.byte } rfl rfl) (by simpa [play] using hp)
    | compareCrc =>
      by_cases hm : s.crc = mirror q.chk
      · have := ih ds _ q' s s' (tail q rfl rfl) (by simpa [play, ← hm] using hp)
        simpa [advance, ← hm] using this
      · simp [play, hm] at hp
    | takeTemp =>
      exact ih ds _ q' s s' (tail { q with temp := composeRaw q.hi q.lo } rfl rfl) (by simpa [play] using hp)

/-- Two stretches one after the other. -/
theorem play_append (l2 : List Stmt) (d2 : List Draw) (l1 : List Stmt) :
    ∀ (d1 : List Draw) (q q' : Seq) (s s' : State), play l1 d1 q s = some (q', s') →
      play (l1 ++ l2) (d1 ++ d2) q s = play l2 d2 q' s' := by
  induction l1 with
  | nil =>
    intro d1 q q' s s' hp
    cases d1 with
    | nil =>
      simp only [play, Option.some.injEq, Prod.mk.injEq] at hp
      obtain ⟨rfl, rfl⟩ := hp
      rfl
    | cons d ds => simp [play] at hp
  | cons st l ih =>
    intro d1 q q' s s' hp
    cases st with
    | bus r =>
      cases d1 with
      | nil => simp [play] at hp
      | cons d ds =>
        cases hf : (d.fail && mayFail r) with
        | true => simp [play, hf] at hp
        | false => simpa [play, hf] using ih ds _ q' _ s' (by simpa [play, hf] using hp)
    | handshake r =>
      cases d1 with
      | nil => simp [play] at hp
      | cons d ds =>
        cases hf : (d.fail && mayFail r) with
        | true => simp [play, hf] at hp
        | false => simpa [play, hf] using ih ds _ q' _ s' (by simpa [play, hf] using hp)
    | checkAck v =>
      cases hl : q.level with
      | true => simp [play, hl] at hp
      | false => simpa [play, hl] using ih d1 _ q' _ s' (by simpa [play, hl] using hp)
    | compareCrc =>
      by_cases hm : s.crc = mirror q.chk
      · simpa [play, ← hm] using ih d1 _ q' _ s' (by simpa [play, ← hm] using hp)
      · simp [play, hm] at hp
    | pollTest => simp [play] at hp
    | clearCrc => simpa [play] using ih d1 _ q' _ s' (by simpa [play] using hp)
    | foldCrc v => simpa [play] using ih d1 _ q' _ s' (by simpa [play] using hp)
    | loadPoll => simpa [play] using ih d1 _ q' _ s' (by simpa [play] using hp)
    | clearByte => simpa [play] using ih d1 _ q' _ s' (by simpa [play] using hp)
    | orBit i => simpa [play] using ih d1 _ q' _ s' (by simpa [play] using hp)
    | takeHi => simpa [play] using ih d1 _ q' _ s' (by simpa [play] using hp)
    | takeLo => simpa [play] using ih d1 _ q' _ s' (by simpa [play] using hp)
    | takeChk => simpa [play] using ih d1 _ q' _ s' (by simpa [play] using hp)
    | takeTemp => simpa [play] using ih d1 _ q' _ s' (by simpa [play] using hp)

end Sys2Proof.Machine
end

