-- ==== Sys2Proof/Tests/Slice0.lean ====
section
/-! SUPPORT. Tests against the vectors of spec/95_test_vectors.md (named in each comment), one step each, the check of
WellFormed on an ill-formed term, words written out from the encoding tables, and for each statement that has hypotheses
a state and operands that meet them. -/

namespace Sys2Proof.Tests

open Sys2Proof Sys2Proof.Machine

-- The tests are checked one after another: side by side they reserve more memory than a build may have.
set_option Elab.async false

/-! ### Helpers -/

/-- The POR state with another STATE and the given answers to come (a named start state, R231). -/
def startIn (p : ProtoState) (ds : List Draw) : State := { State.reset with proto := p, inputs := answers ds }

/-- The POR state with the given events to come. -/
def withEvents (ins : List Input) : State := { State.reset with inputs := ins }

/-- A draw that succeeds with a level. -/
def lvl (b : Bool) : Draw := { fail := false, detail := 0, level := b }

/-- A draw that fails. -/
def bad (detail : Byte) : Draw := { fail := true, detail := detail, level := false }

/-- `n` draws that succeed, level LOW. -/
def oks (n : Nat) : List Draw := List.replicate n (lvl false)

/-- Draws for ReadByte whose samples carry `v`. -/
def byteDraws (ack : Bool) (v : Byte) : List Draw :=
  bitsDown.flatMap (fun i => [lvl false, lvl false, lvl (v.getLsbD i), lvl false, lvl false]) ++ oks (if ack then 8 else 4)

/-- Draws for Poll with ready on the `k`-th sample. -/
def pollDraws (k : Nat) : List Draw := (List.replicate (k - 1) [lvl false, lvl true]).flatten ++ oks 2

/-- Draws for ReadMeas. -/
def readMeasDraws (hi lo chk : Byte) : List Draw := byteDraws true hi ++ byteDraws true lo ++ byteDraws false chk

/-- Draws for GetValue. -/
def getValueDraws (k : Nat) (hi lo chk : Byte) : List Draw := oks 69 ++ pollDraws k ++ readMeasDraws hi lo chk

/-- The feedback constant at its normative value. -/
def poly : Byte := Literals.normative.poly

/-- Whether an outcome is a next state with a property. -/
def nextIs (o : Host.Outcome State Fault Refusal) (f : State → Bool) : Bool :=
  match o with
  | .next t => f t
  | .fault _ => false
  | .refused _ => false

/-- Whether an outcome is a given refusal. -/
def refusedIs (o : Host.Outcome State Fault Refusal) (r : Refusal) : Bool :=
  match o with
  | .next _ => false
  | .fault _ => false
  | .refused r' => r' == r

/-- Whether an outcome is a given fault. -/
def faultIs (o : Host.Outcome State Fault Refusal) (r : Fault) : Bool :=
  match o with
  | .next _ => false
  | .fault r' => r' == r
  | .refused _ => false

/-- STATUS of a state. -/
def status (s : State) : Word := registerValue s .status

/-- A command is running: INIT at its CLK_LOW, as a step from reset leaves it. -/
def running : State :=
  { State.reset with
    proto := .transmitting
    seq := some { seqStart .init .uninitialized with pos := 1 }
    request := some 0x100000
    trace := [{ request := 0x704E20, response := some 0x0000 }] }

/-- CRC_MUTATE 0x03 held before its first statement. -/
def heldStart : State :=
  { State.reset with proto := .transmitting, seq := some (seqStart (.crcMutate 0x03) .uninitialized) }

/-- INIT held, the answer to its CLK_LOW received: a success. -/
def heldAnswer : State :=
  { running with seq := some { seqStart .init .uninitialized with pos := 1, reply := some 0x0000 } }

/-! ### WellFormed -/

/-- R82: a WAIT of a duration the engine never issues is ill-formed. -/
theorem test_wellFormed_refuses_wait : (Instr.wait 3).wellFormed Params.default = false := by decide

/-- R82: the three durations are well-formed. -/
theorem test_wellFormed_waits :
    ((Instr.wait 2).wellFormed Params.default && (Instr.wait 5000).wellFormed Params.default && (Instr.wait 20000).wellFormed Params.default) = true := by decide

/-! ### Decoding: words from R72 and R82 (95_test_vectors.md V-ENC, V-BUS-1) -/

theorem test_decode_init : decodeTableWord 16 0b0000000100000000 = some .init := by decide
theorem test_decode_reset : decodeTableWord 16 0b0000001000000000 = some .reset := by decide
theorem test_decode_getValue_t : decodeTableWord 16 0b0001000000000000 = some (.getValue .temperature) := by decide
theorem test_decode_getValue_h : decodeTableWord 16 0b0001000000000001 = some (.getValue .humidity) := by decide
theorem test_decode_getValues : decodeTableWord 16 0b0001000100000000 = some .getValues := by decide
theorem test_decode_tstart : decodeTableWord 16 0b0010000000000000 = some .tstart := by decide
theorem test_decode_sendByte : decodeTableWord 16 0b0010000110100101 = some (.sendByte 0xA5) := by decide
theorem test_decode_readByte_noack : decodeTableWord 16 0b0010001000000000 = some (.readByte false) := by decide
theorem test_decode_readByte_ack : decodeTableWord 16 0b0010001000000001 = some (.readByte true) := by decide
theorem test_decode_startMeas : decodeTableWord 16 0b0011000000000001 = some (.startMeas .humidity) := by decide
theorem test_decode_poll : decodeTableWord 16 0b0011000100000000 = some .poll := by decide
theorem test_decode_readMeas : decodeTableWord 16 0b0011001000000000 = some .readMeas := by decide
theorem test_decode_crcMutate : decodeTableWord 16 0b0100000010000000 = some (.crcMutate 0x80) := by decide
theorem test_decode_mirror : decodeTableWord 16 0b0100000100000001 = some (.mirror 0x01) := by decide
theorem test_decode_clkLow : decodeTableWord 24 0b000100000000000000000000 = some .clkLow := by decide
theorem test_decode_clkHigh : decodeTableWord 24 0b001000000000000000000000 = some .clkHigh := by decide
theorem test_decode_datLow : decodeTableWord 24 0b001100000000000000000000 = some .datLow := by decide
theorem test_decode_datHigh : decodeTableWord 24 0b010000000000000000000000 = some .datHigh := by decide
theorem test_decode_datRelease : decodeTableWord 24 0b010100000000000000000000 = some .datRelease := by decide
theorem test_decode_sample : decodeTableWord 24 0b011000000000000000000000 = some .sample := by decide
theorem test_decode_wait : decodeTableWord 24 0b011100000001001110001000 = some (.wait 5000) := by decide

/-- V-ENC-1 to V-ENC-7, R82: reserved words are refused by name. -/
theorem test_decode_reserved :
    decodeCommand 0x0000 = .error (.reservedOpcode 0x00) ∧ decodeCommand 0x0101 = .error (.reservedArgument 0x01 0x01) ∧
    decodeCommand 0x1002 = .error (.reservedArgument 0x10 0x02) ∧ decodeCommand 0x2202 = .error (.reservedArgument 0x22 0x02) ∧
    decodeCommand 0x3101 = .error (.reservedArgument 0x31 0x01) ∧ decodeCommand 0x4200 = .error (.reservedOpcode 0x42) ∧
    decodeCommand 0xFFFF = .error (.reservedOpcode 0xFF) ∧ decodeRequest 0x800000 = .error (.reservedKind 0x8) ∧
    decodeRequest 0x100001 = .error (.durationNotZero 0x1) := by decide

/-- V-BUS-1: the request words. -/
theorem test_request_words :
    Request.clkLow.word = 0x100000 ∧ Request.clkHigh.word = 0x200000 ∧ Request.datLow.word = 0x300000 ∧
    Request.datHigh.word = 0x400000 ∧ Request.datRelease.word = 0x500000 ∧ Request.sample.word = 0x600000 ∧
    (Request.wait 2).word = 0x700002 ∧ (Request.wait 5000).word = 0x701388 ∧ (Request.wait 20000).word = 0x704E20 := by
  decide

/-! ### The host port (V-ENC-1, V-ENC-8, V-ENC-10, V-ENC-12, V-ENC-13, R24, R40) -/

theorem test_step_reserved : refusedIs (step (withEvents [.hostWrite 0 0x0000])) (.reservedOpcode 0x00) = true := by decide
theorem test_step_before_init :
    refusedIs (step (withEvents [.hostWrite 0 0x1000])) (.notAdmitted .uninitialized) = true := by decide
theorem test_step_in_failed :
    refusedIs (step { withEvents [.hostWrite 0 0x2000] with proto := .failed }) (.notAdmitted .failed) = true := by decide
theorem test_step_while_transmitting :
    refusedIs (step { withEvents [.hostWrite 0 0x0100] with proto := .transmitting }) (.notAdmitted .transmitting) = true := by
  decide
theorem test_step_admitted :
    nextIs (step (withEvents [.hostWrite 0 0x4003])) (fun t => t.crc == 0x53 && status t == 0x0000) = true := by decide
theorem test_step_write_readonly : refusedIs (step (withEvents [.hostWrite 5 0])) (.writeOfReadOnly 5) = true := by decide
theorem test_step_read_cmd : refusedIs (step (withEvents [.hostRead 0])) .readOfCmd = true := by decide
theorem test_step_read_status :
    nextIs (step { withEvents [.hostRead 1] with proto := .failed, err := 4 })
      (fun t => t.reads == [{ idx := 1, value := 0x0013 }]) = true := by decide
theorem test_step_unsolicited : faultIs (step (withEvents (answers [lvl false]))) .unsolicitedAnswer = true := by decide

/-! ### INIT and RESET -/

/-- V-PR-1. -/
theorem test_init : nextIs (exec .init (startIn .uninitialized (oks 3)))
    (fun t => status t == 0x0001 && t.clk == .low && t.dat == .low && issued t == [0x704E20, 0x100000, 0x300000]) = true := by
  decide

/-- V-BUS-2: CLK_LOW fails with detail 0x5A. -/
theorem test_init_fails : nextIs (exec .init (startIn .uninitialized [lvl false, bad 0x5A]))
    (fun t => status t == 0x0004 && t.faultInfo == 0x105A && t.clk == .unknown && t.dat == .unknown &&
      issued t == [0x704E20, 0x100000]) = true := by decide

/-- V-PR-8. -/
theorem test_reset : nextIs (exec .reset (startIn .idle (oks 106)))
    (fun t => status t == 0x0001 && t.crc == 0x5C && t.clk == .low && t.dat == .released && t.trace.length == 106 &&
      (issued t).take 5 == [0x400000, 0x200000, 0x700002, 0x100000, 0x700002]) = true := by decide +kernel

/-- V-PR-9: the reset byte is not acknowledged. -/
theorem test_reset_nack : nextIs (exec .reset (startIn .failed (oks 103 ++ [lvl true])))
    (fun t => status t == 0x000B && t.faultInfo == 0x001E && t.crc == 0x00 && t.clk == .high && t.dat == .released &&
      t.trace.length == 104) = true := by decide +kernel

/-! ### TSTART, SEND_BYTE, READ_BYTE -/

/-- V-PR-4. -/
theorem test_tstart : nextIs (exec .tstart { startIn .idle (oks 12) with crc := 0x5C })
    (fun t => status t == 0x0001 && t.crc == 0x00 && t.clk == .low && t.dat == .high &&
      issued t == [0x200000, 0x700002, 0x300000, 0x700002, 0x100000, 0x700002, 0x200000, 0x700002, 0x400000, 0x700002,
        0x100000, 0x700002]) = true := by decide

/-- V-PR-5: the third line action fails with detail 0x01. -/
theorem test_tstart_fails : nextIs (exec .tstart { startIn .idle (oks 4 ++ [bad 0x01]) with crc := 0x5C })
    (fun t => status t == 0x0007 && t.faultInfo == 0x1001 && t.crc == 0x00 && t.clk == .unknown && t.dat == .low &&
      t.trace.length == 5) = true := by decide

/-- W3, acknowledged: the data requests carry 0xA5, bit 7 first. -/
theorem test_sendByte : nextIs (exec (.sendByte 0xA5) (startIn .idle (oks 57)))
    (fun t => status t == 0x0001 && t.crc == 0x09 && t.clk == .low && t.dat == .released && t.trace.length == 57 &&
      [2, 8, 14, 20, 26, 32, 38, 44].map (fun n => (issued t)[n]?) ==
        [some 0x400000, some 0x300000, some 0x400000, some 0x300000, some 0x300000, some 0x400000, some 0x300000,
          some 0x400000]) = true := by decide +kernel

/-- W3, not acknowledged. -/
theorem test_sendByte_nack : nextIs (exec (.sendByte 0xA5) (startIn .idle (oks 54 ++ [lvl true])))
    (fun t => status t == 0x000B && t.faultInfo == 0x00A5 && t.crc == 0x00 && t.clk == .high && t.dat == .released &&
      t.trace.length == 55) = true := by decide +kernel

/-- V-PR-11. -/
theorem test_readByte_ack : nextIs (exec (.readByte true) { startIn .idle (byteDraws true 0xA5) with crc := 0x77 })
    (fun t => status t == 0x0001 && t.value == 0x00A5 && t.crc == 0x77 && t.dat == .released && t.trace.length == 48) = true := by decide +kernel

/-- V-PR-13. -/
theorem test_readByte_noack : nextIs (exec (.readByte false) { startIn .idle (oks 44) with dat := .high, value := 0xFFFF })
    (fun t => status t == 0x0001 && t.value == 0x0000 && t.dat == .high && t.trace.length == 44) = true := by decide +kernel

/-! ### The measurement commands -/

/-- V-MS-2 (D6). -/
theorem test_startMeas : nextIs (exec (.startMeas .humidity) (startIn .idle (oks 69)))
    (fun t => status t == 0x0001 && t.crc == 0xF5 && t.trace.length == 69) = true := by decide +kernel

/-- P4: START_MEAS T not acknowledged (D6). -/
theorem test_startMeas_nack : nextIs (exec (.startMeas .temperature) (startIn .idle (oks 66 ++ [lvl true])))
    (fun t => status t == 0x000B && t.faultInfo == 0x0003 && t.crc == 0x00 && t.clk == .high && t.trace.length == 67) = true := by decide +kernel

/-- V-MS-5: ready on the 62nd sample. -/
theorem test_poll_last : nextIs (exec .poll (startIn .idle (pollDraws 62)))
    (fun t => status t == 0x0001 && t.pollcnt == 1 && t.trace.length == 124) = true := by decide +kernel

/-- V-MS-6: never ready. -/
theorem test_poll_timeout : nextIs (exec .poll (startIn .idle (List.replicate 124 (lvl true))))
    (fun t => status t == 0x000F && t.pollcnt == 0 && t.faultInfo == 0x0000 && t.trace.length == 124) = true := by decide +kernel

/-- A measurement at the last bit of its checksum byte, the nine answers that finish it to come; `byte` holds the seven
bits already read, CRC the accumulator R121 gives. -/
def lastBit (cmd : Instr) (hi lo byte crc : Byte) (temp : Word) (b : Bool) : State :=
  { State.reset with
    proto := .transmitting
    crc := crc
    pollcnt := 62
    clk := .low
    dat := .released
    seq := some { seqStart cmd .idle with
      pos := (textOf Params.default cmd).length - 12, hi := hi, lo := lo, byte := byte, temp := temp }
    request := some 0x200000
    inputs := answers ([lvl false, lvl false, lvl b] ++ oks 6) }

/-- The end of R174's example: bytes 0x17, 0x70, 0x4F, CRC 0xF2. -/
theorem test_readMeas : nextIs (step (lastBit .readMeas 0x17 0x70 0x4E 0xF2 0x0000 true))
    (fun t => status t == 0x0001 && t.value == 0x1770 && t.crc == 0xF2 && t.trace.length == 9) = true := by decide +kernel

/-- The end of V-MS-7: every sample HIGH. -/
theorem test_readMeas_mismatch : nextIs (step (lastBit .readMeas 0xFF 0xFF 0xFE 0xE7 0x0000 true))
    (fun t => status t == 0x0013 && t.faultInfo == 0xE7FF && t.crc == 0xE7 && t.value == 0x0000) = true := by decide +kernel

/-- The end of V-GV-1 (D6). -/
theorem test_getValue : nextIs (step (lastBit (.getValue .temperature) 0x17 0x70 0x4E 0xF2 0x0000 true))
    (fun t => status t == 0x0001 && t.value == 0x1770 && t.crc == 0xF2 && t.tempRaw == 0x0000 && t.trace.length == 9) = true := by
  decide +kernel

/-- The end of V-GV-5 (D6): a corrupt checksum byte. -/
theorem test_getValue_mismatch : nextIs (step (lastBit (.getValue .humidity) 0x04 0x31 0x18 0x18 0x0000 true))
    (fun t => status t == 0x0013 && t.faultInfo == 0x1819 && t.crc == 0x18 && t.value == 0x0000) = true := by
  decide +kernel

/-- The end of P1's GET_VALUES (D6). -/
theorem test_getValues : nextIs (step (lastBit .getValues 0x04 0x31 0x18 0x18 0x1770 false))
    (fun t => status t == 0x0001 && t.tempRaw == 0x1770 && t.humRaw == 0x0431 && t.value == 0x0000 && t.pollcnt == 62) = true := by
  decide +kernel

/-- The end of V-MS-9 (D6): the HUMIDITY checksum is corrupt. -/
theorem test_getValues_mismatch : nextIs (step (lastBit .getValues 0x04 0x31 0x18 0x18 0x1770 true))
    (fun t => status t == 0x0013 && t.faultInfo == 0x1819 && t.tempRaw == 0x0000 && t.humRaw == 0x0000) = true := by
  decide +kernel

/-! ### The CRC commands -/

/-- V-CC-1. -/
theorem test_crcMutate : nextIs (exec (.crcMutate 0x80) (startIn .failed []))
    (fun t => t.crc == 0x7A && status t == 0x0003 && t.trace == []) = true := by decide

/-- V-CRC-2: the accumulator's own value gives 0. -/
theorem test_crcMutate_self : nextIs (exec (.crcMutate 0x53) { startIn .idle [] with crc := 0x53 })
    (fun t => t.crc == 0x00) = true := by decide

/-- V-CC-3. -/
theorem test_mirror : nextIs (exec (.mirror 0x01) (startIn .uninitialized []))
    (fun t => t.value == 0x0080 && status t == 0x0000) = true := by decide

/-- V-CC-5. -/
theorem test_mirror_crc : nextIs (exec (.mirror 0x03) { startIn .idle [] with crc := 0x5C })
    (fun t => t.value == 0x00C0 && t.crc == 0x5C) = true := by decide

/-! ### The bus requests (R105 to R111, V-BUS-5, V-BUS-6) -/

theorem test_clkLow : nextIs (exec .clkLow { withEvents (answers (oks 1)) with clk := .high })
    (fun t => t.clk == .low && issued t == [0x100000]) = true := by decide
theorem test_clkHigh_fails : nextIs (exec .clkHigh { withEvents (answers [bad 0x33]) with clk := .low })
    (fun t => t.clk == .unknown && t.err == 1 && t.faultInfo == 0x2033) = true := by decide
theorem test_datLow : nextIs (exec .datLow { withEvents (answers (oks 1)) with dat := .released })
    (fun t => t.dat == .low && issued t == [0x300000]) = true := by decide
theorem test_datHigh : nextIs (exec .datHigh { withEvents (answers (oks 1)) with dat := .released })
    (fun t => t.dat == .high && issued t == [0x400000]) = true := by decide
theorem test_datRelease : nextIs (exec .datRelease { withEvents (answers (oks 1)) with dat := .low })
    (fun t => t.dat == .released && issued t == [0x500000]) = true := by decide
theorem test_sample_fails : nextIs (exec .sample { withEvents (answers [bad 0x22]) with clk := .high, dat := .released })
    (fun t => t.clk == .high && t.dat == .released && t.faultInfo == 0x6022) = true := by decide
theorem test_wait_never_fails : nextIs (exec (.wait 20000) (withEvents (answers [bad 0x22])))
    (fun t => t.err == 0 && t.trace == [{ request := 0x704E20, response := some 0x0000 }]) = true := by decide
theorem test_request_waits : nextIs (exec .sample (withEvents [])) (fun t => t.request == some 0x600000) = true := by decide

/-! ### The CRC functions (V-CRC-1 to V-CRC-5) -/

theorem test_mutate_table : ([0x1E, 0x31, 0xA5, 0xFF] : List Byte).map (mutate poly 0x00) = [0x5C, 0xF4, 0x09, 0xAC] := by decide
theorem test_mutate_others : mutate poly 0x12 0x34 = 0x20 ∧ mutate poly 0xAC 0xFF = 0x2D ∧ mutate poly 0x53 0x00 = 0x2D := by decide
theorem test_mirror_table : ([0x03, 0x1E, 0x31, 0xF2, 0x48, 0xB7] : List Byte).map mirror =
    [0xC0, 0x78, 0x8C, 0x4F, 0x12, 0xED] := by decide
theorem test_measured : measuredCrc Params.default 0x03 0x17 0x70 = mirror 0x4F ∧ measuredCrc Params.default 0x05 0x05 0x9D = mirror 0xB6 := by decide +kernel

/-! ### The parameters (R6): a corrected literal changes one field -/

theorem test_params_tBit :
    nextIs (exec .tstart { startIn .idle (oks 12) with params := { Params.default with tBit := 7 } })
      (fun t => (issued t).take 4 == [0x200000, 0x700007, 0x300000, 0x700007]) = true := by decide
theorem test_params_pollLimit :
    nextIs (exec .poll { startIn .idle (List.replicate 4 (lvl true)) with params := { Params.default with pollLimit := 2 } })
      (fun t => status t == 0x000F && t.pollcnt == 0 && t.trace.length == 4) = true := by decide
theorem test_widths : Config.accWidth = 8 ∧ Config.rawWidth = 16 ∧ Config.hostWidth = 16 ∧ 2 ^ 3 = Config.hostRegs ∧
    Config.busReqWidth = 24 := by decide

/-! ### Power-on reset while a request is outstanding (R102, R236) -/

theorem test_por_abandons : nextIs (step { running with inputs := [.por] })
    (fun t => t.request == none && busTrace t == [{ request := 0x704E20, response := some 0x0000 },
      { request := 0x100000, response := none }]) = true := by decide

/-! ### An event while a command is held (R236: at any time; R39, R80, R205, R230, V-CRC-1) -/

theorem test_held_start : nextIs (step (withEvents [.hostWriteHeld 0x4003])) (fun t => t == heldStart) = true := by decide
theorem test_held_read_status : nextIs (step { heldStart with inputs := [.hostRead 1] })
    (fun t => t.reads == [{ idx := 1, value := 0x0002 }]) = true := by decide
theorem test_held_write_refused :
    refusedIs (step { heldStart with inputs := [.hostWrite 0 0x4003] }) (.notAdmitted .transmitting) = true := by decide
theorem test_held_start_goes_on : nextIs (step { heldStart with inputs := [.proceed] })
    (fun t => t.crc == 0x53 && status t == 0x0000 && t.trace == []) = true := by decide
theorem test_held_answer : nextIs (step { running with inputs := [.answerHeld (lvl true)] }) (fun t => t == heldAnswer) = true := by
  decide
theorem test_held_answer_por : nextIs (step { heldAnswer with inputs := [.por] })
    (fun t => status t == 0x0000 && t.clk == .unknown && t.seq == none && busTrace t ==
      [{ request := 0x704E20, response := some 0x0000 }, { request := 0x100000, response := some 0x0000 }]) = true := by decide
theorem test_held_answer_goes_on : nextIs (step { heldAnswer with inputs := [.proceed] })
    (fun t => t.clk == .low && t.request == some 0x300000 && pendingReply t == none) = true := by decide
theorem test_held_answer_once :
    faultIs (step { heldAnswer with inputs := answers [lvl true] }) .unsolicitedAnswer = true := by decide

/-! ### Placing a word where the step fetches it -/

theorem test_fetch_init : nextIs (step (State.reset.withFetchWord 16 0x0100))
    (fun t => t.proto == .transmitting && t.request == some 0x704E20) = true := by decide
theorem test_fetch_reset : nextIs (step (State.reset.withFetchWord 16 0x0200))
    (fun t => t.proto == .transmitting && t.request == some 0x400000) = true := by decide
theorem test_fetch_datHigh : nextIs (step (State.reset.withFetchWord 24 0x400000)) (fun t => t.dat == .high) = true := by decide

/-! ### The trace and the assembler (R85, R87) -/

theorem test_traceText : nextIs (exec .init (startIn .uninitialized [lvl false, bad 0x5A]))
    (fun t => traceText t == ["WAIT 20000", "CLK_LOW!FAIL"]) = true := by decide
theorem test_traceText_failed_sample : traceItem { request := 0x600000, response := some (respond .sample (bad 0x22)) } =
    "SAMPLE!FAIL" := by decide
theorem test_assemble_binary : assemble ["MIRROR", "0b00000001"] = some 0x4101 ∧ assemble [".word", "0b2"] = none ∧
    assemble ["SEND_BYTE", "0x100"] = none := by decide +kernel
theorem test_asmText : asmText (.sendByte 0xA5) = "SEND_BYTE 0xA5" ∧ asmText (.readByte false) = "READ_BYTE NOACK" := by decide

theorem test_assemble : assemble ["SEND_BYTE", "0xA5"] = some 0x21A5 ∧ assemble ["GET_VALUE", "H"] = some 0x1001 ∧
    assemble ["READ_BYTE", "ACK"] = some 0x2201 ∧ assemble [".word", "0x4200"] = some 0x4200 ∧ assemble ["INIT"] = some 0x0100 := by
  decide +kernel

/-! ### Witnesses: for each statement with hypotheses, a state and operands that meet them -/

theorem witness_PorStepRestoresEveryRegister : { running with inputs := [.por] }.inputs = .por :: [] := rfl
theorem witness_DecodedWordsEncodeBack :
    decodeCommand 0x21FF = .ok (.sendByte 0xFF) ∧ decodeRequest 0x701388 = .ok (.wait 5000) := by decide
theorem witness_ReservedCommandWordsAreRefused :
    CmdWrite (withEvents [.hostWrite 0 0x4200]) 0x4200 [] ∧ CmdWrite (withEvents [.hostWriteHeld 0x4200]) 0x4200 [] ∧
    opField 0x4200 ∉ ([0x01, 0x02, 0x10, 0x11, 0x20, 0x21, 0x22, 0x30, 0x31, 0x32, 0x40, 0x41] : List Byte) ∧
    (opField 0x0101 ∈ ([0x01, 0x02, 0x11, 0x20, 0x31, 0x32] : List Byte) ∧ argField 0x0101 ≠ 0x00) ∧
    (opField 0x1002 ∈ ([0x10, 0x22, 0x30] : List Byte) ∧ 0x01 < argField 0x1002) := by decide
theorem witness_CommandsRunExactlyWhereAdmitted :
    Instr.reset.isCommand = true ∧ ProtoState.failed ∈ admittedStates .reset ∧
    ProtoState.uninitialized ∉ admittedStates .reset := by decide
theorem witness_StepRunsTheDecodedCommand :
    (withEvents [.hostWrite 0 0x0100]).inputs = .hostWrite 0 0x0100 :: [] ∧ decodeCommand 0x0100 = .ok .init ∧
    (withEvents [.hostWriteHeld 0x0100]).inputs = .hostWriteHeld 0x0100 :: [] ∧
    (withEvents [.hostWriteHeld 0x0100]).proto ∈ admittedStates .init ∧ heldStart.proto ∉ admittedStates .init := by decide
theorem witness_StepRunsTheOutstandingRequest :
    { running with inputs := answers [lvl true] }.inputs = .answer (lvl true) :: [] ∧
    running.request = some Request.clkLow.word ∧ pendingReply running = none ∧
    running.seq = some { seqStart .init .uninitialized with pos := 1 } ∧
    { running with inputs := [.answerHeld (lvl true)] }.inputs = .answerHeld (lvl true) :: [] := by decide
theorem witness_PortAccessesWithoutMeaningAreRefused :
    (1 : RegIndex) ≠ 0 ∧ (7 : RegIndex) ≠ 0 ∧ (withEvents [.hostWrite 7 9]).inputs = .hostWrite 7 9 :: [] ∧
    (withEvents [.hostRead 0]).inputs = .hostRead 0 :: [] ∧ (withEvents [.hostRead 1]).inputs = .hostRead 1 :: [] := by decide
theorem witness_HostReadsReturnTheRegisters :
    (withEvents [.hostRead 7]).inputs = .hostRead 7 :: [] ∧ (withEvents [.hostRead 1]).inputs = .hostRead 1 :: [] ∧
    (withEvents [.hostRead 2]).inputs = .hostRead 2 :: [] ∧ State.reset.proto ≠ .transmitting := by decide
theorem witness_ReadsWhileACommandRunsAreFree :
    running.proto = .transmitting ∧ (2 : RegIndex) ≤ 2 ∧ (2 : RegIndex) ≤ 7 ∧
    { running with inputs := [.hostRead 2] }.inputs = .hostRead 2 :: [] ∧
    CmdWrite { running with inputs := [.hostWrite 0 0x0100] } 0x0100 [] ∧
    CmdWrite { running with inputs := [.hostWriteHeld 0x0100] } 0x0100 [] := by decide
theorem witness_ClockRequestsDriveTheClock :
    (withEvents (answers [lvl true])).inputs = .answer (lvl true) :: [] ∧ (lvl true).fail = false ∧
    (withEvents (answers [bad 0xFF])).inputs = .answer (bad 0xFF) :: [] ∧ (bad 0xFF).fail = true := by decide
theorem witness_DataRequestsDriveTheDataLine :
    { running with inputs := answers [lvl false] }.inputs = .answer (lvl false) :: [] ∧ (lvl false).fail = false ∧
    { running with inputs := answers [bad 0x00] }.inputs = .answer (bad 0x00) :: [] ∧ (bad 0x00).fail = true := by decide
theorem witness_SampleReturnsTheDrawnLevel :
    { running with inputs := answers [lvl true] }.inputs = .answer (lvl true) :: [] ∧ (lvl true).fail = false ∧
    { running with inputs := answers [bad 0x22] }.inputs = .answer (bad 0x22) :: [] ∧ (bad 0x22).fail = true := by decide
theorem witness_WaitNeverFails : (withEvents (answers [bad 0xFF])).inputs = .answer (bad 0xFF) :: [] := rfl
theorem witness_FailedRequestEndsTheCommand :
    running.seq = some { seqStart .init .uninitialized with pos := 1 } ∧
    ({ seqStart .init .uninitialized with pos := 1 } : Machine.Seq).reply = none ∧ running.request = some Request.clkLow.word ∧
    (∀ dur, Request.clkLow ≠ .wait dur) ∧ (bad 0x5A).fail = true ∧
    { running with inputs := answers [bad 0x5A] }.inputs = .answer (bad 0x5A) :: [] :=
  ⟨rfl, rfl, rfl, fun _ => (by simp), rfl, rfl⟩
theorem witness_UnansweredRequestWaits :
    (∀ d ins, running.inputs ≠ .answer d :: ins) ∧ running.inputs = [] ∧
    ({ running with inputs := [.proceed] }.inputs = .proceed :: [] ∧ running.request.isSome = true ∧ pendingReply running = none) ∧
    (withEvents [.proceed]).inputs = .proceed :: [] ∧ (withEvents [.proceed]).seq = none :=
  ⟨fun _ _ => (by simp [running, State.reset]), rfl, by decide, rfl, rfl⟩
theorem witness_InitEstablishesTheIdleState :
    (startIn .failed (oks 3)).proto ≠ .transmitting ∧ InitAnswers (oks 3) ∧
    (startIn .failed (oks 3)).inputs = answers (oks 3) ++ [] := by decide
theorem witness_FailedInitLeavesUninitialized :
    (startIn .idle []).proto ≠ .transmitting ∧
    ((startIn .idle [lvl false, bad 0]).inputs = answers [lvl false, bad 0] ++ [] ∧ (bad 0).fail = true) ∧
    ((startIn .idle [lvl false, lvl false, bad 1]).inputs = answers [lvl false, lvl false, bad 1] ++ [] ∧
      (lvl false).fail = false ∧ (bad 1).fail = true) := by decide
theorem witness_ResetForcesTheSensorOut :
    (startIn .failed (oks 106)).proto = .failed ∧ ResetAnswers Params.default (oks 106) ∧
    (startIn .failed (oks 106)).inputs = answers (oks 106) ++ [] := by decide +kernel
theorem witness_TstartClearsTheCrc :
    (startIn .idle (oks 12)).proto = .idle ∧ TStartAnswers (oks 12) ∧
    (startIn .idle (oks 12)).inputs = answers (oks 12) ++ [] := by decide
theorem witness_FailedTstartClearsTheCrc :
    (startIn .idle (oks 10 ++ [bad 7])).proto = .idle ∧ Succeed (oks 10) ∧
    (tStartRequests Params.default)[(oks 10).length]? = some .clkLow ∧ (∀ dur, Request.clkLow ≠ .wait dur) ∧
    (bad 7).fail = true ∧ (startIn .idle (oks 10 ++ [bad 7])).inputs = answers (oks 10 ++ [bad 7]) ++ [] :=
  ⟨rfl, by decide, by decide, fun _ => (by simp), rfl, by decide⟩
theorem witness_SendByteFoldsAnAcknowledgedByte :
    (startIn .idle (oks 57)).proto = .idle ∧ AckAnswers (oks 57) ∧
    (startIn .idle (oks 57)).inputs = answers (oks 57) ++ [] := by decide +kernel
theorem witness_SendByteNackLeavesTheCrc :
    (startIn .idle []).proto = .idle ∧ NackAnswers (oks 54 ++ [lvl true]) ∧
    (startIn .idle (oks 54 ++ [lvl true])).inputs = answers (oks 54 ++ [lvl true]) ++ [] := by decide +kernel
theorem witness_ReadByteAssemblesTheByte :
    (startIn .idle []).proto = .idle ∧ ReadAnswers true 0xA5 (byteDraws true 0xA5) ∧
    ReadAnswers false 0xFF (byteDraws false 0xFF) ∧
    (startIn .idle (byteDraws true 0xA5)).inputs = answers (byteDraws true 0xA5) ++ [] := by decide +kernel
theorem witness_StartMeasSendsTheCommandByte :
    (startIn .idle []).proto = .idle ∧ StartAnswers (oks 69) ∧
    (startIn .idle (oks 69)).inputs = answers (oks 69) ++ [] := by decide +kernel
theorem witness_PollSucceedsOnTheReadySample :
    (startIn .idle []).proto = .idle ∧ ReadyAnswers Params.default 1 (pollDraws 1) ∧ ReadyAnswers Params.default 62 (pollDraws 62) ∧
    (startIn .idle (pollDraws 62)).inputs = answers (pollDraws 62) ++ [] := by decide +kernel
theorem witness_PollTimesOutAfterSixtyTwoSamples :
    (startIn .idle []).proto = .idle ∧ NeverReadyAnswers Params.default (List.replicate 124 (lvl true)) ∧
    (startIn .idle (List.replicate 124 (lvl true))).inputs = answers (List.replicate 124 (lvl true)) ++ [] := by decide +kernel

theorem witness_ReadMeasAnswers : ReadMeasAnswers 0x17 0x70 0x4F (readMeasDraws 0x17 0x70 0x4F) :=
  ⟨byteDraws true 0x17, byteDraws true 0x70, byteDraws false 0x4F, rfl, by decide +kernel, by decide +kernel,
    by decide +kernel⟩
theorem witness_ReadMeasReturnsTheCheckedValue :
    (startIn .idle []).proto = .idle ∧ ReadMeasAnswers 0x17 0x70 0x4F (readMeasDraws 0x17 0x70 0x4F) ∧
    { startIn .idle (readMeasDraws 0x17 0x70 0x4F) with crc := 0x53 }.inputs =
      answers (readMeasDraws 0x17 0x70 0x4F) ++ [] ∧
    mutate poly (mutate poly 0x53 0x17) 0x70 = mirror 0x4F :=
  ⟨rfl, witness_ReadMeasAnswers, by simp [startIn], by decide +kernel⟩
theorem witness_ReadMeasRejectsABadChecksum :
    (startIn .idle []).proto = .idle ∧ ReadMeasAnswers 0x17 0x70 0x4F (readMeasDraws 0x17 0x70 0x4F) ∧
    { startIn .idle (readMeasDraws 0x17 0x70 0x4F) with crc := 0x54 }.inputs =
      answers (readMeasDraws 0x17 0x70 0x4F) ++ [] ∧
    mutate poly (mutate poly 0x54 0x17) 0x70 ≠ mirror 0x4F :=
  ⟨rfl, witness_ReadMeasAnswers, by simp [startIn], by decide +kernel⟩

theorem witness_GetValueAnswers (k : Nat) (h : ReadyAnswers Params.default k (pollDraws k)) :
    GetValueAnswers Params.default k 0x17 0x70 0x4F (getValueDraws k 0x17 0x70 0x4F) :=
  ⟨oks 69, pollDraws k, readMeasDraws 0x17 0x70 0x4F, rfl, by decide +kernel, h, witness_ReadMeasAnswers⟩
theorem witness_GetValueReturnsOneReading :
    (startIn .idle []).proto = .idle ∧ GetValueAnswers Params.default 4 0x17 0x70 0x4F (getValueDraws 4 0x17 0x70 0x4F) ∧
    (startIn .idle (getValueDraws 4 0x17 0x70 0x4F)).inputs = answers (getValueDraws 4 0x17 0x70 0x4F) ++ [] ∧
    measuredCrc Params.default (commandByteFor State.reset.params .temperature) 0x17 0x70 = mirror 0x4F :=
  ⟨rfl, witness_GetValueAnswers 4 (by decide +kernel), by simp [startIn], by decide +kernel⟩

/-- The HUMIDITY channel of P1, with an agreeing (0x18) or a corrupt (0x19) checksum byte. -/
theorem witness_humidity_answers (chk : Byte) (h : ReadAnswers false chk (byteDraws false chk)) :
    GetValueAnswers Params.default 1 0x04 0x31 chk (getValueDraws 1 0x04 0x31 chk) :=
  ⟨oks 69, pollDraws 1, readMeasDraws 0x04 0x31 chk, rfl, by decide +kernel, by decide, byteDraws true 0x04,
    byteDraws true 0x31, byteDraws false chk, rfl, by decide +kernel, by decide +kernel, h⟩
theorem witness_GetValuesReturnsBothReadings :
    (startIn .idle []).proto = .idle ∧ GetValueAnswers Params.default 4 0x17 0x70 0x4F (getValueDraws 4 0x17 0x70 0x4F) ∧
    GetValueAnswers Params.default 1 0x04 0x31 0x18 (getValueDraws 1 0x04 0x31 0x18) ∧
    (startIn .idle (getValueDraws 4 0x17 0x70 0x4F ++ getValueDraws 1 0x04 0x31 0x18)).inputs =
      answers (getValueDraws 4 0x17 0x70 0x4F ++ getValueDraws 1 0x04 0x31 0x18) ++ [] ∧
    measuredCrc Params.default State.reset.params.cmdTemp 0x17 0x70 = mirror 0x4F ∧
    measuredCrc Params.default State.reset.params.cmdHum 0x04 0x31 = mirror 0x18 :=
  ⟨rfl, witness_GetValueAnswers 4 (by decide +kernel), witness_humidity_answers 0x18 (by decide +kernel), by simp [startIn],
    by decide +kernel, by decide +kernel⟩
theorem witness_GetValuesDiscardsAHalfReading :
    (startIn .idle []).proto = .idle ∧ GetValueAnswers Params.default 4 0x17 0x70 0x4F (getValueDraws 4 0x17 0x70 0x4F) ∧
    GetValueAnswers Params.default 1 0x04 0x31 0x19 (getValueDraws 1 0x04 0x31 0x19) ∧
    (startIn .idle (getValueDraws 4 0x17 0x70 0x4F ++ getValueDraws 1 0x04 0x31 0x19)).inputs =
      answers (getValueDraws 4 0x17 0x70 0x4F ++ getValueDraws 1 0x04 0x31 0x19) ++ [] ∧
    measuredCrc Params.default State.reset.params.cmdTemp 0x17 0x70 = mirror 0x4F ∧
    measuredCrc Params.default State.reset.params.cmdHum 0x04 0x31 ≠ mirror 0x19 :=
  ⟨rfl, witness_GetValueAnswers 4 (by decide +kernel), witness_humidity_answers 0x19 (by decide +kernel), by simp [startIn],
    by decide +kernel, by decide +kernel⟩
theorem witness_UnacknowledgedMeasurementStops :
    (startIn .idle []).proto = .idle ∧ (Instr.getValues = .getValues ∧ Kind.temperature = .temperature) ∧
    TStartAnswers (oks 12) ∧ NackAnswers (oks 54 ++ [lvl true]) ∧
    (startIn .idle (oks 12 ++ (oks 54 ++ [lvl true]))).inputs = answers (oks 12 ++ (oks 54 ++ [lvl true])) ++ [] := by decide +kernel
theorem witness_CrcMutateFoldsTheByte : (startIn .failed []).proto ≠ .transmitting := by decide
theorem witness_MirrorWritesTheReversedByte : (startIn .uninitialized []).proto ≠ .transmitting := by decide
theorem witness_MutateIsLinear : mutate poly 0x53 (0x17 ^^^ 0x00) = mutate poly 0x53 0x17 := by decide
theorem witness_FailureReturnsNoPartialResult : Instr.tstart.isCommand = true ∧
    nextIs (exec .tstart (startIn .idle [bad 1])) (fun t => t.proto != .transmitting && t.err != 0) = true := by decide
theorem witness_SuccessFollowsTheTransitionTable : Instr.init.isCommand = true ∧
    nextIs (exec .init (startIn .failed (oks 3))) (fun t => t.proto != .transmitting && t.err == 0) = true := by decide
theorem witness_RunningCommandHidesItsResults : Instr.init.isCommand = true ∧
    nextIs (exec .init (startIn .failed (oks 2))) (fun t => t.proto == .transmitting) = true := by decide
theorem witness_CommandFrames : Instr.crcMutate 1 ≠ .poll ∧ Instr.poll.isCommand = true ∧
    nextIs (exec .poll (startIn .idle (oks 1))) (fun _ => true) = true := by decide
theorem witness_BusRequestFrames :
    nextIs (exec Request.clkLow.toInstr { running with inputs := answers [bad 3] }) (fun t => t.err == 1) = true ∧
    Request.sample ≠ .clkLow ∧ Request.sample ≠ .clkHigh ∧ Request.sample ≠ .datLow ∧ Request.sample ≠ .datHigh ∧
    Request.sample ≠ .datRelease := by decide
theorem witness_SuspendedRunEqualsWholeRun : Instr.init.isCommand = true ∧
    (startIn .idle (oks 3)).inputs = answers (oks 1 ++ lvl false :: oks 1) ++ [] ∧
    nextIs (exec .init { startIn .idle (oks 3) with inputs := answers (oks 1) }) (fun t => t.proto == .transmitting) = true := by
  decide
theorem witness_SuspendedRunEqualsWholeRun_start : (Instr.crcMutate 0x03).commandWord? = some 0x4003 ∧
    (startIn .failed []).proto ∈ admittedStates (.crcMutate 0x03) ∧
    { startIn .failed [] with inputs := [.hostWriteHeld 0x4003, .proceed] }.inputs = .hostWriteHeld 0x4003 :: .proceed :: [] := by
  decide
theorem witness_SuspendedRunEqualsWholeRun_answer : running.proto = .transmitting ∧
    running.seq = some { seqStart .init .uninitialized with pos := 1 } ∧
    ({ seqStart .init .uninitialized with pos := 1 } : Machine.Seq).reply = none ∧ running.request = some Request.clkLow.word ∧
    { running with inputs := [.answerHeld (bad 1), .proceed] }.inputs = .answerHeld (bad 1) :: .proceed :: [] := by decide
theorem witness_ComposedSamplesAreReleased :
    nextIs (exec (.startMeas .humidity) (startIn .idle (oks 66))) (fun t => t.request == some 0x600000) = true := by decide +kernel
theorem witness_PositionsFitInTenBits : Normative Params.default := rfl
theorem witness_MinimumWaits :
    Normative State.reset.params ∧ (startIn .idle (oks 3)).inputs = answers (oks 3) ++ [] ∧
    (startIn .idle (oks 3)).proto ∈ admittedStates .init ∧ InitAnswers (oks 3) ∧ ResetAnswers Params.default (oks 106) ∧
    TStartAnswers (oks 12) ∧ AckAnswers (oks 57) ∧ NackAnswers (oks 54 ++ [lvl true]) ∧ StartAnswers (oks 69) ∧
    ReadyAnswers Params.default 62 (pollDraws 62) ∧ NeverReadyAnswers Params.default (List.replicate 124 (lvl true)) := by
  decide +kernel
theorem witness_MinimumWaits_reads :
    ReadAnswers true 0xA5 (byteDraws true 0xA5) ∧ ReadAnswers false 0xFF (byteDraws false 0xFF) ∧
    ReadMeasAnswers 0x17 0x70 0x4F (readMeasDraws 0x17 0x70 0x4F) ∧ mutate poly (mutate poly 0x53 0x17) 0x70 = mirror 0x4F :=
  ⟨by decide +kernel, by decide +kernel, witness_ReadMeasAnswers, by decide +kernel⟩
theorem witness_MinimumWaits_measurements :
    GetValueAnswers Params.default 4 0x17 0x70 0x4F (getValueDraws 4 0x17 0x70 0x4F) ∧
    GetValueAnswers Params.default 1 0x04 0x31 0x18 (getValueDraws 1 0x04 0x31 0x18) ∧
    measuredCrc Params.default Params.default.cmdTemp 0x17 0x70 = mirror 0x4F ∧
    measuredCrc Params.default Params.default.cmdHum 0x04 0x31 = mirror 0x18 :=
  ⟨witness_GetValueAnswers 4 (by decide +kernel), witness_humidity_answers 0x18 (by decide +kernel), by decide +kernel,
    by decide +kernel⟩
theorem witness_EveryStepKeepsCoherence :
    Coherent { running with inputs := answers [lvl false] } ∧
    nextIs (step { running with inputs := answers [lvl false] }) (fun t => t.clk == .low) = true := by decide
theorem witness_EveryStepKeepsCoherence_held :
    Coherent { heldStart with inputs := [.proceed] } ∧ Coherent { heldAnswer with inputs := [.proceed] } ∧
    LegalBus { heldAnswer with inputs := [.proceed] } ∧
    nextIs (step { heldAnswer with inputs := [.proceed] }) (fun t => t.clk == .low) = true := by decide
theorem witness_EveryStepKeepsTheBusLegal :
    Coherent { running with inputs := answers [lvl false] } ∧ LegalBus { running with inputs := answers [lvl false] } ∧
    nextIs (step { running with inputs := answers [lvl false] }) (fun t => t.clk == .low) = true := by decide
theorem witness_OnlyResetLeavesFailed :
    Coherent { startIn .failed [] with inputs := .hostWrite 0 0x0200 :: answers (oks 106) } ∧
    nextIs (step { startIn .failed [] with inputs := .hostWrite 0 0x0200 :: answers (oks 106) })
      (fun t => t.proto == .idle) = true := by decide +kernel
theorem witness_RunningCommandIsExclusive :
    running.proto = .transmitting ∧ { running with inputs := [.hostRead 1] }.inputs = .hostRead 1 :: [] ∧
    (∀ d, Input.hostRead 1 ≠ .answer d) ∧ (∀ d, Input.hostRead 1 ≠ .answerHeld d) ∧ Input.hostRead 1 ≠ .proceed ∧
    Input.hostRead 1 ≠ .por ∧ nextIs (step { running with inputs := [.hostRead 1] }) (fun _ => true) = true ∧
    heldStart.proto = .transmitting ∧ nextIs (step { heldStart with inputs := [.hostRead 2] }) (fun _ => true) = true :=
  ⟨rfl, rfl, fun _ => (by simp), fun _ => (by simp), by decide, by decide, by decide, by decide, by decide⟩
theorem witness_FaultsOnlyOnUnsolicitedAnswers :
    Coherent (withEvents (answers [lvl false])) ∧
    step (withEvents (answers [lvl false])) = .fault .unsolicitedAnswer ∧
    Coherent { heldAnswer with inputs := [.answerHeld (lvl false)] } ∧
    step { heldAnswer with inputs := [.answerHeld (lvl false)] } = .fault .unsolicitedAnswer :=
  ⟨by decide, rfl, by decide, rfl⟩
theorem witness_EndedRunStays : Ended (startIn .idle []) := by decide

end Sys2Proof.Tests
end

section
/-! SUPPORT. What one step can do, said once: one equation per event, and the inversion of `step` (70_reset_and_hazards.md
R236). -/

namespace Sys2Proof.Machine

open Sys2Proof

/-! ### Instructions and their rows -/

/-- A command's row is `runCommand` (R72, R80). -/
theorem exec_command (i : Instr) (s : State) (h : i.isCommand = true) : exec i s = runCommand i s := by
  cases i
  case clkLow | clkHigh | datLow | datHigh | datRelease | sample | wait => cases h
  all_goals rfl

/-- A bus request's row is `busRequest` (R82, R101). -/
theorem exec_request (r : Request) (s : State) : exec r.toInstr s = busRequest r s := by cases r <;> rfl

/-- A decoder's result that is a command, if it is an instruction. -/
def CommandOnly (x : Except DecodeError Instr) : Prop := ∀ i, x = .ok i → i.isCommand = true

theorem CommandOnly.ok {i : Instr} (h : i.isCommand = true) : CommandOnly (.ok i) := by
  rintro _ ⟨⟩
  exact h

theorem CommandOnly.error {e : DecodeError} : CommandOnly (.error e) := by
  rintro _ ⟨⟩

theorem CommandOnly.ite {c : Prop} [Decidable c] {x y : Except DecodeError Instr} (hx : CommandOnly x)
    (hy : CommandOnly y) : CommandOnly (if c then x else y) := by
  split
  · exact hx
  · exact hy

theorem CommandOnly.needZero {op arg : Byte} {i : Instr} (h : i.isCommand = true) :
    CommandOnly (needZero op arg i) :=
  .ite (.ok h) .error

theorem CommandOnly.needBit {op arg : Byte} {i0 i1 : Instr} (h0 : i0.isCommand = true) (h1 : i1.isCommand = true) :
    CommandOnly (needBit op arg i0 i1) :=
  .ite (.ok h0) (.ite (.ok h1) .error)

/-- The decoder of command words answers commands only (R72, R79). -/
theorem decodeCommand_isCommand {w : Word} {i : Instr} (h : decodeCommand w = .ok i) : i.isCommand = true :=
  have all : CommandOnly (decodeCommand w) :=
    .ite (.needZero rfl) <| .ite (.needZero rfl) <| .ite (.needBit rfl rfl) <| .ite (.needZero rfl) <|
    .ite (.needZero rfl) <| .ite (.ok rfl) <| .ite (.needBit rfl rfl) <| .ite (.needBit rfl rfl) <|
    .ite (.needZero rfl) <| .ite (.needZero rfl) <| .ite (.ok rfl) <| .ite (.ok rfl) .error
  all i h

/-- The word of a command decodes to it (R72 to R74). -/
theorem decodeCommand_commandWord? {i : Instr} {w : Word} (h : i.commandWord? = some w) : decodeCommand w = .ok i := by
  have hop : ∀ op arg, opField (commandWord op arg) = op := fun _ _ => BitVec.extractLsb'_append_eq_left
  have harg : ∀ op arg, argField (commandWord op arg) = arg := fun _ _ => BitVec.extractLsb'_append_eq_right
  cases i <;> cases h
  case sendByte b | crcMutate b | mirror b => simp [decodeCommand, hop, harg]
  case getValue k | startMeas k => cases k <;> rfl
  case readByte a => cases a <;> rfl
  all_goals rfl

/-- A command's word is the word of a command, not of a bus request (R72). -/
theorem isCommand_of_commandWord? {i : Instr} {w : Word} (h : i.commandWord? = some w) : i.isCommand = true :=
  decodeCommand_isCommand (decodeCommand_commandWord? h)

/-- The admission table of R80, read as the states each command is admitted in. -/
theorem admits_iff (i : Instr) (p : ProtoState) : admits i p = true ↔ p ∈ admittedStates i := by
  have bus : admitsBus p = true ↔ p ∈ [ProtoState.idle] := by cases p <;> decide
  have crc : admitsCrc p = true ↔ p ∈ [ProtoState.uninitialized, .idle, .failed] := by cases p <;> decide
  have none : false = true ↔ p ∈ ([] : List ProtoState) := by simp
  cases i with
  | init => cases p <;> decide
  | reset => cases p <;> decide
  | crcMutate | mirror => exact crc
  | getValue | getValues | tstart | sendByte | readByte | startMeas | poll | readMeas => exact bus
  | clkLow | clkHigh | datLow | datHigh | datRelease | sample | wait => exact none

/-- No command is admitted while one runs (R80). -/
theorem ne_transmitting_of_admits {i : Instr} {p : ProtoState} (h : admits i p = true) : p ≠ .transmitting := by
  rintro rfl
  cases i <;> cases h

/-! ### The step, event by event -/

section
variable {s : State} {ins : List Input}

/-- With no event to come the engine stays as it is (R232, R113). -/
theorem step_idle (h : s.inputs = []) : step s = .next s := by simp [step, fetch, h]

/-- A CMD write of a word that decodes runs the command (R23, R79). -/
theorem step_hostWrite {w : Word} {i : Instr} (h : s.inputs = .hostWrite 0 w :: ins) (hd : decodeCommand w = .ok i) :
    step s = exec i { s with inputs := ins } := by
  simp [step, fetch, fetchWrite, hostReg, h, hd]

/-- A CMD write of a reserved word is refused (R76, R77). -/
theorem step_hostWrite_reserved {w : Word} {e : DecodeError} (h : s.inputs = .hostWrite 0 w :: ins)
    (hd : decodeCommand w = .error e) : step s = .refused (refusalOf e) := by
  simp [step, fetch, fetchWrite, hostReg, h, hd]

/-- Index 0 is the only one that names CMD (R22). -/
theorem hostReg_eq_cmd_iff (idx : RegIndex) : hostReg idx = .cmd ↔ idx = 0 := by
  revert idx; decide

/-- Index 1 is the only one that names STATUS (R22). -/
theorem hostReg_eq_status_iff (idx : RegIndex) : hostReg idx = .status ↔ idx = 1 := by
  revert idx; decide

/-- A write of any register but CMD is refused (R40). -/
theorem step_hostWrite_readOnly {idx : RegIndex} {v : Word} (h : s.inputs = .hostWrite idx v :: ins) (hi : idx ≠ 0) :
    step s = .refused (.writeOfReadOnly idx) := by
  simp [step, fetch, fetchWrite, h, (hostReg_eq_cmd_iff idx).not.mpr hi]

/-- A host read (R51). -/
theorem step_hostRead {idx : RegIndex} (h : s.inputs = .hostRead idx :: ins) :
    step s = hostRead idx { s with inputs := ins } := by simp [step, fetch, h]

/-- A power-on reset (R230). -/
theorem step_por (h : s.inputs = .por :: ins) : step s = .next (powerOnReset { s with inputs := ins }) := by
  simp [step, fetch, h]

/-- A CMD write that holds the command it starts (R205). -/
theorem step_hostWriteHeld {w : Word} {i : Instr} (h : s.inputs = .hostWriteHeld w :: ins)
    (hd : decodeCommand w = .ok i) : step s = holdCommand i { s with inputs := ins } := by
  simp [step, fetch, fetchWriteHeld, h, hd]

/-- A CMD write of a reserved word is refused, held or not (R76, R77). -/
theorem step_hostWriteHeld_reserved {w : Word} {e : DecodeError} (h : s.inputs = .hostWriteHeld w :: ins)
    (hd : decodeCommand w = .error e) : step s = .refused (refusalOf e) := by
  simp [step, fetch, fetchWriteHeld, h, hd]

/-- An answer to the outstanding request is acted on, and the running command goes on (R27, R62, R101). -/
theorem step_answer {r : Request} {d : Draw} (h : s.inputs = .answer d :: ins) (ha : awaited s = .ok r) :
    step s = .next (runOn (resume (answerRequest r d { s with inputs := ins }))) := by
  simp [step, fetch, fetchAnswer, h, ha, exec_request, busRequest_answer r s d ins h, continueCommand]

/-- An answer no request waits for is a fault (log entry 8). -/
theorem step_answer_fault {d : Draw} {f : Fault} (h : s.inputs = .answer d :: ins) (ha : awaited s = .error f) :
    step s = .fault f := by
  simp [step, fetch, fetchAnswer, h, ha]

/-- An answer that holds the engine (R231). -/
theorem step_answerHeld {d : Draw} (h : s.inputs = .answerHeld d :: ins) :
    step s = holdAnswer d { s with inputs := ins } := by simp [step, fetch, h]

/-- The engine, held, goes on (R27). -/
theorem step_proceed (h : s.inputs = .proceed :: ins) : step s = .next (proceed { s with inputs := ins }) := by
  simp [step, fetch, h]

end

/-- A host read that answers records a value, and draws at most (R39). -/
theorem hostRead_next {idx : RegIndex} {s t : State} (h : hostRead idx s = .next t) :
    ∃ v n, t = recordRead idx v { s with draws := n } := by
  unfold hostRead at h
  split_ifs at h <;> cases h
  · exact ⟨_, _, rfl⟩
  · exact ⟨_, s.draws, rfl⟩

/-- An answer that holds the engine leaves the running command its pending response (R231). -/
theorem holdAnswer_next {d : Draw} {s t : State} (h : holdAnswer d s = .next t) :
    ∃ r q, awaited s = .ok r ∧ s.seq = some q ∧ t = { s with seq := some { q with reply := some (respond r d) } } := by
  unfold holdAnswer at h
  split at h <;> cases h
  next r q ha hq => exact ⟨r, q, ha, hq, rfl⟩

/-- What a step that answers a next state has done, by the event it took (R236). -/
inductive Taken (s : State) : State → Prop
  /-- There was no event. -/
  | idle (hin : s.inputs = []) : Taken s s
  /-- A CMD write, the command run as far as it goes. -/
  | command {w : Word} {i : Instr} {ins : List Input} (hin : s.inputs = .hostWrite 0 w :: ins)
      (hdec : decodeCommand w = .ok i) (hadm : admits i s.proto = true) :
      Taken s (runOn (startCommand i { s with inputs := ins }))
  /-- A CMD write, the command held before its first statement. -/
  | commandHeld {w : Word} {i : Instr} {ins : List Input} (hin : s.inputs = .hostWriteHeld w :: ins)
      (hdec : decodeCommand w = .ok i) (hadm : admits i s.proto = true) :
      Taken s (beginCommand i { s with inputs := ins })
  /-- A host read. -/
  | read {idx : RegIndex} {ins : List Input} (v : Word) (n : Nat) (hin : s.inputs = .hostRead idx :: ins) :
      Taken s (recordRead idx v { s with inputs := ins, draws := n })
  /-- A power-on reset. -/
  | por {ins : List Input} (hin : s.inputs = .por :: ins) : Taken s (powerOnReset { s with inputs := ins })
  /-- An answer, acted on. -/
  | answer {r : Request} {d : Draw} {ins : List Input} (hin : s.inputs = .answer d :: ins) (haw : awaited s = .ok r) :
      Taken s (runOn (resume (answerRequest r d { s with inputs := ins })))
  /-- An answer, received and not yet acted on. -/
  | answerHeld {r : Request} {d : Draw} {q : Seq} {ins : List Input} (hin : s.inputs = .answerHeld d :: ins)
      (haw : awaited s = .ok r) (hq : s.seq = some q) :
      Taken s { s with seq := some { q with reply := some (respond r d) }, inputs := ins }
  /-- The engine, held, goes on. -/
  | proceed {ins : List Input} (hin : s.inputs = .proceed :: ins) : Taken s (proceed { s with inputs := ins })

/-- The inversion of `step`: a next state is one of those the events give. -/
theorem step_taken {s t : State} (h : step s = .next t) : Taken s t := by
  cases hin : s.inputs with
  | nil =>
    rw [step_idle hin] at h
    cases h
    exact .idle hin
  | cons x ins =>
    cases x with
    | hostWrite idx w =>
      by_cases hi : idx = 0
      · subst hi
        cases hd : decodeCommand w with
        | ok i =>
          rw [step_hostWrite hin hd, exec_command _ _ (decodeCommand_isCommand hd)] at h
          obtain ⟨ha, rfl⟩ := runCommand_next _ _ _ h
          exact .command hin hd ha
        | error e => rw [step_hostWrite_reserved hin hd] at h; cases h
      · rw [step_hostWrite_readOnly hin hi] at h; cases h
    | hostWriteHeld w =>
      cases hd : decodeCommand w with
      | ok i =>
        rw [step_hostWriteHeld hin hd] at h
        cases ha : admits i s.proto with
        | true =>
          rw [holdCommand_admitted i { s with inputs := ins } ha] at h
          cases h
          exact .commandHeld hin hd ha
        | false => rw [holdCommand_refused i { s with inputs := ins } ha] at h; cases h
      | error e => rw [step_hostWriteHeld_reserved hin hd] at h; cases h
    | hostRead idx =>
      rw [step_hostRead hin] at h
      obtain ⟨v, n, rfl⟩ := hostRead_next h
      exact .read v n hin
    | por =>
      rw [step_por hin] at h
      cases h
      exact .por hin
    | answer d =>
      cases ha : awaited s with
      | ok r =>
        rw [step_answer hin ha] at h
        cases h
        exact .answer hin ha
      | error f => rw [step_answer_fault hin ha] at h; cases h
    | answerHeld d =>
      rw [step_answerHeld hin] at h
      obtain ⟨r, q, ha, hq, rfl⟩ := holdAnswer_next h
      exact .answerHeld hin ha hq
    | proceed =>
      rw [step_proceed hin] at h
      cases h
      exact .proceed hin

end Sys2Proof.Machine
end

section
/-! SUPPORT. What the statements of an operation text write, and what a stretch of them, and a response acted on, can
do (10_state.md R27; 40_bus_primitives.md R101). -/

namespace Sys2Proof.Machine

open Sys2Proof

/-! ### What a statement writes -/

/-- The line actions, which write the line records (R105 to R109). -/
def isLineAction : Request → Bool
  | .clkLow | .clkHigh | .datLow | .datHigh | .datRelease => true
  | .sample | .wait _ => false

/-- The statements that issue a line action. -/
def Stmt.drivesLine (st : Stmt) : Bool := st.request?.any isLineAction

/-- The statements that write CRC, a request inside TStart by its failure (R145). -/
def Stmt.writesCrc : Stmt → Bool
  | .handshake _ | .clearCrc | .foldCrc _ | .takeHi | .takeLo => true
  | .bus _ | .checkAck _ | .loadPoll | .pollTest | .clearByte | .orBit _ | .takeChk | .compareCrc | .takeTemp => false

/-- The statements that write POLLCNT (R34). -/
def Stmt.writesPollcnt : Stmt → Bool
  | .loadPoll | .pollTest => true
  | .bus _ | .handshake _ | .clearCrc | .checkAck _ | .foldCrc _ | .clearByte | .orBit _ | .takeHi | .takeLo
  | .takeChk | .compareCrc | .takeTemp => false

/-- TStart, SendByte and ReadByte leave POLLCNT alone (R34). -/
theorem writesPollcnt_tStartText (p : Params) : (tStartText p).any Stmt.writesPollcnt = false := rfl

theorem writesPollcnt_sendByteText (p : Params) (v : Byte) :
    (sendByteText p v).any Stmt.writesPollcnt = false := rfl

theorem writesPollcnt_readByteText (p : Params) (a : Bool) :
    (readByteText p a).any Stmt.writesPollcnt = false := by cases a <;> rfl

theorem writesPollcnt_resetText (p : Params) : (resetText p).any Stmt.writesPollcnt = false := by
  have pulse : (resetPulse p).any Stmt.writesPollcnt = false := rfl
  have pulses : ((List.replicate p.resetToggles (resetPulse p)).flatten).any Stmt.writesPollcnt = false := by
    rw [List.any_flatten, List.any_replicate, pulse]
    split <;> rfl
  simp only [resetText, List.any_append, pulses, writesPollcnt_tStartText, writesPollcnt_sendByteText]
  rfl

theorem writesPollcnt_startMeasText (p : Params) (k : Kind) :
    (startMeasText p k).any Stmt.writesPollcnt = false := by
  simp only [startMeasText, List.any_append, writesPollcnt_tStartText, writesPollcnt_sendByteText, Bool.or_self]

theorem writesPollcnt_readMeasText (p : Params) : (readMeasText p).any Stmt.writesPollcnt = false := by
  simp only [readMeasText, List.any_append, writesPollcnt_readByteText]
  rfl

/-- The commands whose text holds a poll loop are the only ones that write POLLCNT (R34). -/
theorem writesPollcnt_textOf (p : Params) {i : Instr} (hp : i ≠ .poll) (hv : ∀ k, i ≠ .getValue k)
    (hvs : i ≠ .getValues) : (textOf p i).any Stmt.writesPollcnt = false := by
  cases i with
  | poll => exact absurd rfl hp
  | getValue k => exact absurd rfl (hv k)
  | getValues => exact absurd rfl hvs
  | reset => exact writesPollcnt_resetText p
  | readByte a => exact writesPollcnt_readByteText p a
  | readMeas => exact writesPollcnt_readMeasText p
  | _ => rfl

/-- ReadByte neither reads nor writes CRC (R149). -/
theorem writesCrc_readByteText (p : Params) (a : Bool) : (readByteText p a).any Stmt.writesCrc = false := by
  cases a <;> rfl

/-- What no statement of a text does, none of what is left of it does. -/
theorem seqRest_any {f : Stmt → Bool} {p : Params} {q : Seq} (h : (textOf p q.cmd).any f = false) :
    (seqRest p q).any f = false := by
  rw [List.any_eq_false] at h ⊢
  exact fun st hst => h st (List.mem_of_mem_drop hst)

/-- A command whose text writes no CRC is not inside TStart (R145). -/
theorem inHandshake_eq_false {s : State} (h : ∀ q, s.seq = some q → (textOf s.params q.cmd).any Stmt.writesCrc = false) :
    inHandshake s = false := by
  cases hq : s.seq with
  | none => simp [inHandshake, hq]
  | some q =>
    have hrest := seqRest_any (h q hq)
    unfold inHandshake
    simp only [hq]
    split
    · next r hst =>
      rw [List.any_eq_false] at hrest
      exact absurd rfl (hrest _ (List.mem_of_head? hst))
    · rfl

/-! ### What a stretch of statements can do -/

/-- How a stretch of statements that issue no request ends (R27, R206, R207). -/
inductive Ending where
  | completed
  | raised (e : Failure)
  | waiting (r : Request)

/-- The state a stretch ends in. -/
def Ending.reached : Ending → Seq → State → State
  | .completed, q, s => complete q s
  | .raised e, q, s => raise e { s with seq := some q }
  | .waiting r, q, s => awaitAnswer r q s

/-- The statements `l` from `q` in `s` lead to the ending `e` with the sequencer at `q'`, CRC `c` and POLLCNT `p`: they
keep the command and the pending response, they write CRC and POLLCNT and issue a line action only where one of them does,
and the events to come have no part in it. -/
structure Stretch (l : List Stmt) (q : Seq) (s : State) (e : Ending) (q' : Seq) (c : Accum) (p : Byte) : Prop where
  cmd : q'.cmd = q.cmd
  origin : q'.origin = q.origin
  reply : q'.reply = q.reply
  crc : l.any Stmt.writesCrc = false → c = s.crc
  pollcnt : l.any Stmt.writesPollcnt = false → p = s.pollcnt
  lines : ∀ r, e = .waiting r → l.any Stmt.drivesLine = false → isLineAction r = false
  advance_eq : ∀ ins, advance l q { s with inputs := ins } = e.reached q' { s with crc := c, pollcnt := p, inputs := ins }

/-- One statement more, which issues no request, before a stretch. -/
theorem Stretch.cons {st : Stmt} {rest : List Stmt} {q q0 q' : Seq} {s : State} {c0 c : Accum} {p0 p : Byte} {e : Ending}
    (h : Stretch rest (seqNext q0) { s with crc := c0, pollcnt := p0 } e q' c p) (hcmd : q0.cmd = q.cmd)
    (horigin : q0.origin = q.origin) (hreply : q0.reply = q.reply) (hcrc : st.writesCrc = false → c0 = s.crc)
    (hpoll : st.writesPollcnt = false → p0 = s.pollcnt)
    (hadv : ∀ ins, advance (st :: rest) q { s with inputs := ins } =
      advance rest (seqNext q0) { s with crc := c0, pollcnt := p0, inputs := ins }) :
    Stretch (st :: rest) q s e q' c p where
  cmd := h.cmd.trans hcmd
  origin := h.origin.trans horigin
  reply := h.reply.trans hreply
  crc := by
    rw [List.any_cons, Bool.or_eq_false_iff]
    exact fun hw => (h.crc hw.2).trans (hcrc hw.1)
  pollcnt := by
    rw [List.any_cons, Bool.or_eq_false_iff]
    exact fun hw => (h.pollcnt hw.2).trans (hpoll hw.1)
  lines := by
    intro r he
    rw [List.any_cons, Bool.or_eq_false_iff]
    exact fun hw => h.lines r he hw.2
  advance_eq := fun ins => (hadv ins).trans (h.advance_eq ins)

/-- Every stretch of statements has an ending. -/
theorem advance_stretch (l : List Stmt) : ∀ (q : Seq) (s : State), ∃ e q' c p, Stretch l q s e q' c p := by
  induction l with
  | nil =>
    exact fun q s => ⟨.completed, q, s.crc, s.pollcnt, rfl, rfl, rfl, fun _ => rfl, fun _ => rfl, nofun, fun _ => rfl⟩
  | cons st rest ih =>
    intro q s
    have stop : ∀ (e : Ending) (q' : Seq) (p : Byte), q'.cmd = q.cmd → q'.origin = q.origin → q'.reply = q.reply →
        (st.writesPollcnt = false → p = s.pollcnt) →
        (∀ r, e = .waiting r → st.drivesLine = false → isLineAction r = false) →
        (∀ ins, advance (st :: rest) q { s with inputs := ins } = e.reached q' { s with pollcnt := p, inputs := ins }) →
        ∃ e q' c p, Stretch (st :: rest) q s e q' c p := by
      intro e q' p hc ho hr hp hl hadv
      refine ⟨e, q', s.crc, p, hc, ho, hr, fun _ => rfl, ?_, ?_, hadv⟩
      · rw [List.any_cons, Bool.or_eq_false_iff]
        exact fun hw => hp hw.1
      · intro r he
        rw [List.any_cons, Bool.or_eq_false_iff]
        exact fun hw => hl r he hw.1
    have go : ∀ (q0 : Seq) (c0 : Accum) (p0 : Byte), q0.cmd = q.cmd → q0.origin = q.origin → q0.reply = q.reply →
        (st.writesCrc = false → c0 = s.crc) → (st.writesPollcnt = false → p0 = s.pollcnt) →
        (∀ ins, advance (st :: rest) q { s with inputs := ins } =
          advance rest (seqNext q0) { s with crc := c0, pollcnt := p0, inputs := ins }) →
        ∃ e q' c p, Stretch (st :: rest) q s e q' c p := by
      intro q0 c0 p0 hc ho hr hcrc hp hadv
      obtain ⟨e, q', c, p, h⟩ := ih (seqNext q0) { s with crc := c0, pollcnt := p0 }
      exact ⟨e, q', c, p, h.cons hc ho hr hcrc hp hadv⟩
    -- a statement that writes a temporary or nothing
    have temp : ∀ q0 : Seq, q0.cmd = q.cmd → q0.origin = q.origin → q0.reply = q.reply →
        (∀ ins, advance (st :: rest) q { s with inputs := ins } = advance rest (seqNext q0) { s with inputs := ins }) →
        ∃ e q' c p, Stretch (st :: rest) q s e q' c p :=
      fun q0 hc ho hr => go q0 s.crc s.pollcnt hc ho hr (fun _ => rfl) (fun _ => rfl)
    have raised : ∀ e : Failure,
        (∀ ins, advance (st :: rest) q { s with inputs := ins } = raise e { s with seq := some q, inputs := ins }) →
        ∃ e q' c p, Stretch (st :: rest) q s e q' c p :=
      fun e => stop (.raised e) q s.pollcnt rfl rfl rfl (fun _ => rfl) nofun
    have issue : ∀ r, st.request? = some r →
        (∀ ins, advance (st :: rest) q { s with inputs := ins } = awaitAnswer r q { s with inputs := ins }) →
        ∃ e q' c p, Stretch (st :: rest) q s e q' c p := by
      intro r hr
      refine stop (.waiting r) q s.pollcnt rfl rfl rfl (fun _ => rfl) ?_
      rintro _ ⟨⟩ hl
      simpa [Stmt.drivesLine, hr] using hl
    cases st with
    | bus r => exact issue r rfl (fun _ => rfl)
    | handshake r => exact issue r rfl (fun _ => rfl)
    | clearCrc => exact go q 0x00 s.pollcnt rfl rfl rfl nofun (fun _ => rfl) (fun _ => rfl)
    | checkAck v =>
      by_cases hl : q.level = true
      · exact raised (.protocolNack v) (fun _ => by simp [advance, hl])
      · exact temp q rfl rfl rfl (fun _ => by simp [advance, hl])
    | foldCrc v => exact go q (mutate s.params.poly s.crc v) s.pollcnt rfl rfl rfl nofun (fun _ => rfl) (fun _ => rfl)
    | loadPoll => exact go q s.crc s.params.pollLimit rfl rfl rfl (fun _ => rfl) nofun (fun _ => rfl)
    | pollTest =>
      by_cases hl : q.level = true
      · by_cases h0 : s.pollcnt - 1 = 0
        · exact stop (.raised .measurementTimeout) q (s.pollcnt - 1) rfl rfl rfl nofun nofun
            (fun _ => by simp only [advance, hl, if_true]; rw [if_pos h0]; rfl)
        · refine stop (.waiting (.wait s.params.tPoll)) (seqLoop q) (s.pollcnt - 1) rfl rfl rfl nofun ?_
            (fun _ => by simp only [advance, hl, if_true]; rw [if_neg h0]; rfl)
          rintro _ ⟨⟩ -
          rfl
      · exact temp q rfl rfl rfl (fun _ => by simp [advance, hl])
    | clearByte => exact temp { q with byte := 0x00 } rfl rfl rfl (fun _ => rfl)
    | orBit i => exact temp (seqOrBit i q) rfl rfl rfl (fun _ => rfl)
    | takeHi =>
      exact go { q with hi := q.byte } (mutate s.params.poly s.crc q.byte) s.pollcnt rfl rfl rfl nofun (fun _ => rfl)
        (fun _ => rfl)
    | takeLo =>
      exact go { q with lo := q.byte } (mutate s.params.poly s.crc q.byte) s.pollcnt rfl rfl rfl nofun (fun _ => rfl)
        (fun _ => rfl)
    | takeChk => exact temp { q with chk := q.byte } rfl rfl rfl (fun _ => rfl)
    | compareCrc =>
      by_cases hm : s.crc = mirror q.chk
      · exact temp q rfl rfl rfl (fun _ => by simp [advance, ← hm])
      · exact raised (.checksumMismatch s.crc q.chk) (fun _ => by simp [advance, hm])
    | takeTemp => exact temp { q with temp := composeRaw q.hi q.lo } rfl rfl rfl (fun _ => rfl)

/-! ### What a response can do -/

/-- A response of success: the trace and the line record (R101). -/
theorem takeResponse_ok {r : Request} {p : Word} (s : State) (h : responseFail p = false) :
    takeResponse r p s = lineDone r (responseLevel p) (recordEvent r p s) := by
  simp [takeResponse, h]

/-- A response of failure: the trace, the line record, then the failure (R101, R104). -/
theorem takeResponse_fail {r : Request} {p : Word} (s : State) (h : responseFail p = true) :
    takeResponse r p s =
      raise (.pinOperation r.kind (responseDetail p)) (lineFailed r (recordEvent r p s)) := by
  simp [takeResponse, h]

/-- A request that succeeds writes the running command's sampled level at most (R110). -/
theorem lineDone_seq_some (r : Request) (l : Bool) {s : State} {q : Seq} (h : s.seq = some q) :
    ∃ l', (lineDone r l s).seq = some { q with level := l' } := by
  cases r with
  | sample => exact ⟨l, by simp [lineDone, h]⟩
  | _ => exact ⟨q.level, h⟩

/-- A response acted on while a command runs: the command fails, or goes on with the next statement (R27, R101). -/
theorem resume_takeResponse (r : Request) (p : Word) {s : State} {q : Seq} (h : s.seq = some q) :
    (∃ e, resume (takeResponse r p s) = raise e (lineFailed r (recordEvent r p s))) ∨
      ∃ l, resume (takeResponse r p s) =
        advanceFrom (seqNext { q with level := l }) (lineDone r (responseLevel p) (recordEvent r p s)) := by
  cases hf : responseFail p with
  | true =>
    refine .inl ⟨.pinOperation r.kind (responseDetail p), ?_⟩
    rw [takeResponse_fail s hf, resume_none _ rfl]
  | false =>
    obtain ⟨l, hl⟩ := lineDone_seq_some r (responseLevel p) (s := recordEvent r p s) h
    exact .inr ⟨l, by rw [takeResponse_ok s hf, resume_some _ _ hl]⟩

/-- A request that is no line action leaves the line records, answered or failed (R110, R111). -/
theorem lineDone_lines {r : Request} (h : isLineAction r = false) (l : Bool) (s : State) :
    (lineDone r l s).clk = s.clk ∧ (lineDone r l s).dat = s.dat := by
  cases r with
  | sample | wait => exact ⟨rfl, rfl⟩
  | _ => cases h

theorem lineFailed_lines {r : Request} (h : isLineAction r = false) (s : State) : lineFailed r s = s := by
  cases r with
  | sample | wait => rfl
  | _ => cases h

end Sys2Proof.Machine
end

section
/-! SUPPORT. The coherence invariant (10_state.md R24, R27, R34; 40_bus_primitives.md R100): the shape of the poll loop in
the operation texts, and what the sequencer keeps between two statements. -/

namespace Sys2Proof.Machine

open Sys2Proof

/-! ### The poll loop's place in the texts (R173) -/

/-- Every poll loop of a text is entered through the load of POLLCNT, and its end has the body's `wait(T_POLL)` two
statements before it. -/
def PollShaped (p : Params) (l : List Stmt) : Prop :=
  ∀ n, l[n]? = some .pollTest → ∃ m, n = m + 3 ∧ l[m]? = some .loadPoll ∧ l[m + 1]? = some (.bus (.wait p.tPoll))

/-- A text that leaves POLLCNT alone has no poll loop. -/
theorem PollShaped.of_writesPollcnt {p : Params} {l : List Stmt} (h : l.any Stmt.writesPollcnt = false) :
    PollShaped p l := by
  intro n hn
  rw [List.any_eq_false] at h
  exact absurd rfl (h _ (List.mem_of_getElem? hn))

theorem PollShaped.pollText (p : Params) : PollShaped p (pollText p) := by
  intro n hn
  match n, hn with
  | 3, _ => exact ⟨0, rfl, rfl, rfl⟩

/-- Two texts one after the other. -/
theorem PollShaped.append {p : Params} {l1 l2 : List Stmt} (h1 : PollShaped p l1) (h2 : PollShaped p l2) :
    PollShaped p (l1 ++ l2) := by
  intro n hn
  rcases Nat.lt_or_ge n l1.length with hlt | hge
  · rw [List.getElem?_append_left hlt] at hn
    obtain ⟨m, rfl, hm, hm1⟩ := h1 n hn
    exact ⟨m, rfl, by rwa [List.getElem?_append_left (by omega)], by rwa [List.getElem?_append_left (by omega)]⟩
  · rw [List.getElem?_append_right hge] at hn
    obtain ⟨m, hnm, hm, hm1⟩ := h2 _ hn
    refine ⟨l1.length + m, by omega, ?_, ?_⟩
    · rwa [List.getElem?_append_right (by omega), Nat.add_sub_cancel_left]
    · rwa [List.getElem?_append_right (by omega), Nat.add_assoc, Nat.add_sub_cancel_left]

theorem PollShaped.getValueText (p : Params) (k : Kind) : PollShaped p (getValueText p k) :=
  ((of_writesPollcnt (writesPollcnt_startMeasText p k)).append (pollText p)).append
    (of_writesPollcnt (writesPollcnt_readMeasText p))

/-- Every operation text has its poll loops so. -/
theorem PollShaped.textOf (p : Params) (i : Instr) : PollShaped p (textOf p i) := by
  cases i with
  | poll => exact pollText p
  | getValue k => exact getValueText p k
  | getValues => exact ((getValueText p _).append (of_writesPollcnt rfl)).append (getValueText p _)
  | _ => exact of_writesPollcnt (writesPollcnt_textOf p nofun nofun nofun)

/-! ### The statements at the sequencer's position -/

/-- The `j`-th statement from the sequencer's position (R27). -/
theorem seqRest_getElem? (p : Params) (q : Seq) (j : Nat) : (seqRest p q)[j]? = (textOf p q.cmd)[q.pos + j]? :=
  List.getElem?_drop

/-- What is left of the text depends on the command and the position only. -/
theorem seqRest_congr {p : Params} {q q' : Seq} (hc : q'.cmd = q.cmd) (hp : q'.pos = q.pos) :
    seqRest p q' = seqRest p q := by
  simp [seqRest, hc, hp]

/-- The command is inside the poll loop where the loop's end is one of the next three statements. -/
theorem inPoll_iff {s : State} {q : Seq} (h : s.seq = some q) :
    inPoll s = true ↔ ∃ j < 3, (textOf s.params q.cmd)[q.pos + j]? = some .pollTest := by
  have take : ∀ l : List Stmt, (l.take 3).contains .pollTest = true ↔ ∃ j < 3, l[j]? = some .pollTest := by
    intro l
    rw [List.contains_iff_mem, List.mem_iff_getElem?]
    simp [List.getElem?_take]
  simp only [inPoll, h, take, seqRest_getElem?]

/-! ### Between two statements -/

/-- What holds while a command runs, with the sequencer at `q`: `Coherent` without what it says of SEQ and the outstanding
request, which are in flux between two statements. -/
structure Engaged (q : Seq) (s : State) : Prop where
  transmitting : s.proto = .transmitting
  admitted : admits q.cmd q.origin = true
  err_le : s.err.toNat ≤ 4
  pollLimit_ne : s.params.pollLimit ≠ 0
  pollcnt_le : s.pollcnt ≤ s.params.pollLimit
  pollcnt_ne : ∀ j < 3, (textOf s.params q.cmd)[q.pos + j]? = some .pollTest → s.pollcnt ≠ 0

/-- `Coherent` with a command running, by what the sequencer needs. -/
theorem coherent_running_iff {s : State} {q : Seq} (h : s.seq = some q) :
    Coherent s ↔ Engaged q s ∧ (atRequest s || atStart s q) = true := by
  constructor
  · rintro ⟨hp, -, hat, hadm, herr, hlim, hcnt, hpoll⟩
    simp only [h, Option.all_some, Option.isSome_some, iff_true] at hp hat hadm
    exact ⟨⟨hp, hadm, herr, hlim, hcnt, fun j hj hn => hpoll ((inPoll_iff h).mpr ⟨j, hj, hn⟩)⟩, hat⟩
  · rintro ⟨he, hat⟩
    refine ⟨by simp [h, he.transmitting], by simp [h], by simpa [h] using hat, by simpa [h] using he.admitted,
      he.err_le, he.pollLimit_ne, he.pollcnt_le, fun hin => ?_⟩
    obtain ⟨j, hj, hn⟩ := (inPoll_iff h).mp hin
    exact he.pollcnt_ne j hj hn

/-- `Coherent` with no command running. -/
theorem coherent_idle_iff {s : State} (h : s.seq = none) :
    Coherent s ↔ s.proto ≠ .transmitting ∧ s.request = none ∧ s.err.toNat ≤ 4 ∧ s.params.pollLimit ≠ 0 ∧
      s.pollcnt ≤ s.params.pollLimit := by
  simp [Coherent, h, inPoll]

theorem Coherent.err_le {s : State} (h : Coherent s) : s.err.toNat ≤ 4 := by
  obtain ⟨-, -, -, -, herr, -⟩ := h
  exact herr

theorem Coherent.pollLimit_ne {s : State} (h : Coherent s) : s.params.pollLimit ≠ 0 := by
  obtain ⟨-, -, -, -, -, hlim, -⟩ := h
  exact hlim

theorem Coherent.pollcnt_le {s : State} (h : Coherent s) : s.pollcnt ≤ s.params.pollLimit := by
  obtain ⟨-, -, -, -, -, -, hcnt, -⟩ := h
  exact hcnt

/-- What the sequencer needs is kept by whatever leaves STATE, ERR, POLLCNT and the parameters. -/
theorem Engaged.congr {q : Seq} {s s' : State} (h : Engaged q s) (hproto : s'.proto = s.proto) (herr : s'.err = s.err)
    (hcnt : s'.pollcnt = s.pollcnt) (hpar : s'.params = s.params) : Engaged q s' where
  transmitting := hproto.trans h.transmitting
  admitted := h.admitted
  err_le := herr ▸ h.err_le
  pollLimit_ne := hpar ▸ h.pollLimit_ne
  pollcnt_le := by rw [hcnt, hpar]; exact h.pollcnt_le
  pollcnt_ne := by rw [hcnt, hpar]; exact h.pollcnt_ne

/-- At the next statement, the temporaries written or not: the poll loop is entered through the load of POLLCNT only. -/
theorem Engaged.next {q q' : Seq} {s : State} {st : Stmt} {rest : List Stmt} (h : Engaged q s)
    (hr : seqRest s.params q = st :: rest) (hst : st ≠ .loadPoll) (hc : q'.cmd = q.cmd) (ho : q'.origin = q.origin)
    (hp : q'.pos = q.pos) : Engaged (seqNext q') s where
  transmitting := h.transmitting
  admitted := by simpa [hc, ho] using h.admitted
  err_le := h.err_le
  pollLimit_ne := h.pollLimit_ne
  pollcnt_le := h.pollcnt_le
  pollcnt_ne := by
    intro j hj hn
    simp only [seqNext_cmd, seqNext_pos, hc, hp, Nat.add_assoc] at hn
    by_cases hj2 : 1 + j < 3
    · exact h.pollcnt_ne (1 + j) hj2 hn
    · obtain ⟨m, hm, hload, -⟩ := PollShaped.textOf s.params q.cmd _ hn
      have hhead : (textOf s.params q.cmd)[q.pos]? = some st := by
        simpa [hr] using (seqRest_getElem? s.params q 0).symm
      obtain rfl : q.pos = m := by omega
      rw [hhead] at hload
      exact absurd (Option.some.inj hload) hst

/-- After the load of POLLCNT (R173), POLL_LIMIT not being 0 (R6). -/
theorem Engaged.load {q : Seq} {s : State} (h : Engaged q s) :
    Engaged (seqNext q) { s with pollcnt := s.params.pollLimit } where
  transmitting := h.transmitting
  admitted := h.admitted
  err_le := h.err_le
  pollLimit_ne := h.pollLimit_ne
  pollcnt_le := BitVec.le_refl _
  pollcnt_ne := fun _ _ _ => h.pollLimit_ne

/-- Back at the poll loop's body (R173), POLLCNT decremented and not 0. -/
theorem Engaged.loop {q : Seq} {s : State} (h : Engaged q s) (hle : s.pollcnt - 1 ≤ s.pollcnt) (hne : s.pollcnt - 1 ≠ 0) :
    Engaged (seqLoop q) { s with pollcnt := s.pollcnt - 1 } where
  transmitting := h.transmitting
  admitted := h.admitted
  err_le := h.err_le
  pollLimit_ne := h.pollLimit_ne
  pollcnt_le := BitVec.le_trans hle h.pollcnt_le
  pollcnt_ne := fun _ _ _ => hne

/-- A command the state admits, at its start (R205): the poll loop is not at the head of a text. -/
theorem Engaged.start {i : Instr} {s : State} (h : Coherent s) (ha : admits i s.proto = true) :
    Engaged (seqStart i s.proto) (beginCommand i s) where
  transmitting := rfl
  admitted := ha
  err_le := h.err_le
  pollLimit_ne := h.pollLimit_ne
  pollcnt_le := h.pollcnt_le
  pollcnt_ne := by
    intro j hj hn
    obtain ⟨m, hm, -⟩ := PollShaped.textOf s.params i _ hn
    simp only [seqStart_pos] at hm
    omega

/-! ### How a stretch of statements ends -/

/-- The codes of R200 are at most 4 (R24). -/
theorem Failure.code_toNat_le (e : Failure) : e.code.toNat ≤ 4 := by cases e <;> simp [Failure.code]

/-- A failed command does not run (R208). -/
theorem failureState_ne_transmitting (c : Option Instr) : failureState c ≠ .transmitting := by
  unfold failureState
  split <;> decide

/-- A command that succeeded does not run (R207). -/
theorem successState_ne_transmitting {i : Instr} {p : ProtoState} (h : admits i p = true) :
    successState i p ≠ .transmitting := by
  have hp := ne_transmitting_of_admits h
  cases i with
  | init => cases p <;> decide
  | crcMutate | mirror => exact hp
  | _ => exact ProtoState.noConfusion

theorem coherent_raise (e : Failure) {s : State} (hlim : s.params.pollLimit ≠ 0) (hcnt : s.pollcnt ≤ s.params.pollLimit) :
    Coherent (raise e s) :=
  (coherent_idle_iff rfl).mpr ⟨failureState_ne_transmitting _, rfl, e.code_toNat_le, hlim, hcnt⟩

theorem coherent_complete {q : Seq} {s : State} (h : Engaged q s) : Coherent (complete q s) :=
  (coherent_idle_iff rfl).mpr ⟨successState_ne_transmitting h.admitted, rfl, Nat.zero_le _,
    by simpa using h.pollLimit_ne, by simpa using h.pollcnt_le⟩

theorem coherent_awaitAnswer {q : Seq} {s : State} {r : Request} {st : Stmt} (h : Engaged q s)
    (hst : seqStmt s.params q = some st) (hr : st.request? = some r) : Coherent (awaitAnswer r q s) :=
  (coherent_running_iff rfl).mpr ⟨h.congr rfl rfl rfl rfl, by simp [atRequest, seqRequest, hst, hr]⟩

/-- The end of the poll loop's body goes back to its `wait(T_POLL)` (R173). -/
theorem seqStmt_seqLoop {p : Params} {q : Seq} {rest : List Stmt} (h : seqRest p q = .pollTest :: rest) :
    seqStmt p (seqLoop q) = some (.bus (.wait p.tPoll)) := by
  have hhead : (textOf p q.cmd)[q.pos]? = some .pollTest := by simpa [h] using (seqRest_getElem? p q 0).symm
  obtain ⟨m, hm, -, hwait⟩ := PollShaped.textOf p q.cmd _ hhead
  rw [seqStmt, List.head?_eq_getElem?, seqRest_getElem?, seqLoop_cmd, seqLoop_pos,
    show q.pos - 2 + 0 = m + 1 by omega, hwait]

/-- The statements that issue no request lead from what the sequencer needs to a coherent state. -/
theorem coherent_advance (l : List Stmt) : ∀ (q : Seq) (s : State), seqRest s.params q = l → Engaged q s →
    Coherent (advance l q s) := by
  induction l with
  | nil => exact fun q s _ h => coherent_complete h
  | cons st rest ih =>
    intro q s hr h
    have hst : seqStmt s.params q = some st := by simp [seqStmt, hr]
    have tail : ∀ q' : Seq, q'.cmd = q.cmd → q'.pos = q.pos → seqRest s.params (seqNext q') = rest := by
      intro q' hc hp
      rw [seqRest_seqNext, seqRest_congr hc hp, hr, List.tail_cons]
    have go : ∀ (q' : Seq) (c : Accum), st ≠ .loadPoll → q'.cmd = q.cmd → q'.origin = q.origin → q'.pos = q.pos →
        Coherent (advance rest (seqNext q') { s with crc := c }) := by
      intro q' c hne hc ho hp
      exact ih (seqNext q') { s with crc := c } (tail q' hc hp) ((h.next hr hne hc ho hp).congr rfl rfl rfl rfl)
    have go' : st ≠ .loadPoll → Coherent (advance rest (seqNext q) s) := fun hne => go q s.crc hne rfl rfl rfl
    cases st with
    | bus r => exact coherent_awaitAnswer h hst rfl
    | handshake r => exact coherent_awaitAnswer h hst rfl
    | clearCrc => exact go q 0x00 (by simp) rfl rfl rfl
    | checkAck v =>
      simp only [advance]
      split
      · exact coherent_raise _ h.pollLimit_ne h.pollcnt_le
      · exact go' (by simp)
    | foldCrc v => exact go q _ (by simp) rfl rfl rfl
    | loadPoll => exact ih (seqNext q) _ (tail q rfl rfl) h.load
    | pollTest =>
      have hne : s.pollcnt ≠ 0 := h.pollcnt_ne 0 (by decide) (by simpa [hr] using (seqRest_getElem? s.params q 0).symm)
      have hle : s.pollcnt - 1 ≤ s.pollcnt := by bv_omega
      simp only [advance]
      split_ifs with hl h0
      · exact coherent_raise _ h.pollLimit_ne (BitVec.le_trans hle h.pollcnt_le)
      · exact coherent_awaitAnswer (h.loop hle h0) (seqStmt_seqLoop hr) rfl
      · exact go' (by simp)
    | clearByte => exact go { q with byte := 0x00 } s.crc (by simp) rfl rfl rfl
    | orBit i => exact go (seqOrBit i q) s.crc (by simp) rfl rfl rfl
    | takeHi => exact go { q with hi := q.byte } _ (by simp) rfl rfl rfl
    | takeLo => exact go { q with lo := q.byte } _ (by simp) rfl rfl rfl
    | takeChk => exact go { q with chk := q.byte } s.crc (by simp) rfl rfl rfl
    | compareCrc =>
      simp only [advance]
      split
      · exact coherent_raise _ h.pollLimit_ne h.pollcnt_le
      · exact go' (by simp)
    | takeTemp => exact go { q with temp := composeRaw q.hi q.lo } s.crc (by simp) rfl rfl rfl

/-! ### Responses -/

/-- Where a request is outstanding in a coherent state, the running command stands at the statement that issues it. -/
theorem Coherent.outstanding {s : State} {w : ReqWord} {r : Request} (h : Coherent s) (hw : s.request = some w)
    (hd : decodeRequest w = .ok r) :
    ∃ q st, s.seq = some q ∧ Engaged q s ∧ seqStmt s.params q = some st ∧ st.request? = some r := by
  cases hq : s.seq with
  | none => simp [((coherent_idle_iff hq).mp h).2.1] at hw
  | some q =>
    obtain ⟨he, hat⟩ := (coherent_running_iff hq).mp h
    have hreq : some w = (seqRequest s).map Request.word := by simpa [atStart, atRequest, hw] using hat
    obtain ⟨r', hr', rfl⟩ := Option.map_eq_some_iff.mp hreq.symm
    rw [decodeRequest_word] at hd
    cases hd
    simp only [seqRequest, hq, Option.bind_some] at hr'
    obtain ⟨st, hst, hr⟩ := Option.bind_eq_some_iff.mp hr'
    exact ⟨q, st, rfl, he, hst, hr⟩

/-- A response to the outstanding request, acted on up to the next request. -/
theorem coherent_resume_takeResponse {s : State} {w : ReqWord} {r : Request} (p : Word) (h : Coherent s)
    (hw : s.request = some w) (hd : decodeRequest w = .ok r) : Coherent (resume (takeResponse r p s)) := by
  obtain ⟨q, st, hq, he, hst, hr⟩ := h.outstanding hw hd
  obtain ⟨e, hgo⟩ | ⟨l, hgo⟩ := resume_takeResponse r p hq
  · rw [hgo]
    exact coherent_raise _ (by simpa using he.pollLimit_ne) (by simpa using he.pollcnt_le)
  · obtain ⟨rest, hrest⟩ := List.head?_eq_some_iff.mp hst
    have hne : st ≠ .loadPoll := by rintro rfl; cases hr
    have hnext : Engaged (seqNext { q with level := l }) s := he.next hrest hne rfl rfl rfl
    rw [hgo]
    exact coherent_advance _ _ _ rfl (hnext.congr (by simp) (by simp) (by simp) (by simp))

/-- The answers that follow are taken one by one (R62). -/
theorem coherent_runOn {s : State} (h : Coherent s) : Coherent (runOn s) :=
  drain_keeps Coherent (fun _ _ h => h) (fun _ _ r d h hw hd => coherent_resume_takeResponse (respond r d) h hw hd)
    s.inputs s h

/-! ### The engine held -/

/-- A pending response, received or taken, does not move the sequencer (R231). -/
theorem coherent_setReply {s : State} {q : Seq} {w : ReqWord} (x : Option Word) (h : Coherent s) (hq : s.seq = some q)
    (hw : s.request = some w) : Coherent { s with seq := some { q with reply := x } } := by
  obtain ⟨he, hat⟩ := (coherent_running_iff hq).mp h
  have he' : Engaged { q with reply := x } s :=
    ⟨he.transmitting, he.admitted, he.err_le, he.pollLimit_ne, he.pollcnt_le, he.pollcnt_ne⟩
  refine (coherent_running_iff rfl).mpr ⟨he'.congr rfl rfl rfl rfl, ?_⟩
  have hreq : atRequest s = true := by simpa [atStart, hw] using hat
  simpa [atRequest, seqRequest, seqStmt, seqRest, hq] using Or.inl hreq

/-- A command held at its start (R205). -/
theorem coherent_beginCommand {i : Instr} {s : State} (h : Coherent s) (ha : admits i s.proto = true) :
    Coherent (beginCommand i s) :=
  (coherent_running_iff rfl).mpr ⟨.start h ha, by simp [atStart]⟩

/-- The engine, held, goes on (R27). -/
theorem coherent_proceed {s : State} (h : Coherent s) : Coherent (proceed s) := by
  obtain ⟨q, hq, -, hgo⟩ | ⟨q, w, p, r, hq, hw, -, hd, hgo⟩ | hgo := proceed_cases s
  · rw [hgo]
    exact coherent_runOn (coherent_advance _ _ _ rfl ((coherent_running_iff hq).mp h).1)
  · rw [hgo]
    exact coherent_runOn (coherent_resume_takeResponse p (coherent_setReply none h hq hw) hw hd)
  · rw [hgo]
    exact h

/-- A power-on reset leaves the parameters (R230, log entry 13). -/
theorem coherent_powerOnReset {s : State} (h : Coherent s) : Coherent (powerOnReset s) :=
  (coherent_idle_iff rfl).mpr ⟨nofun, rfl, Nat.zero_le _, h.pollLimit_ne, Nat.zero_le _⟩

/-- Settles O53: every clause is a value of the fixed reset state. -/
theorem resetIsCoherent : Obligations.ResetIsCoherent :=
  (coherent_idle_iff rfl).mpr (by decide)

/-- Settles O54, by the event the step took: each leads to a coherent state by the sequencer's lemmas above. -/
theorem everyStepKeepsCoherence : Obligations.EveryStepKeepsCoherence := by
  intro s t h hstep
  cases step_taken hstep with
  | idle => exact h
  | command hin hdec hadm => exact coherent_runOn (coherent_advance _ _ _ rfl (.start h hadm))
  | commandHeld hin hdec hadm => exact coherent_beginCommand h hadm
  | read v n hin => exact h
  | por hin => exact coherent_powerOnReset h
  | answer hin haw =>
    obtain ⟨w, hw, hd, -⟩ := awaited_ok _ _ haw
    exact coherent_runOn (coherent_resume_takeResponse _ h hw hd)
  | answerHeld hin haw hq =>
    obtain ⟨w, hw, -, -⟩ := awaited_ok _ _ haw
    exact coherent_setReply _ h hq hw
  | proceed hin => exact coherent_proceed h

end Sys2Proof.Machine
end

section
/-! SUPPORT. The host port (10_state.md R22 to R30, R39, R40) and the start of a command by a CMD write (R23, R205). -/

namespace Sys2Proof.Machine

open Sys2Proof

/-! ### What a host read returns -/

/-- CMD has no storage (R23, R40). -/
theorem hostRead_cmd (s : State) : hostRead 0 s = .refused .readOfCmd := by simp [hostRead, hostReg]

/-- A read of a register other than STATUS while a command runs draws a free value (R39). -/
theorem hostRead_free {idx : RegIndex} {s : State} (h0 : idx ≠ 0) (h1 : idx ≠ 1) (hp : s.proto = .transmitting) :
    hostRead idx s = .next (recordRead idx (Config.freeRead s.draws) { s with draws := s.draws + 1 }) := by
  have hfree : readIsFree s (hostReg idx) = true := by
    simpa [readIsFree, hp] using (hostReg_eq_status_iff idx).not.mpr h1
  simp [hostRead, (hostReg_eq_cmd_iff idx).not.mpr h0, hfree]

/-- Any other read returns what the register holds (R22). -/
theorem hostRead_register {idx : RegIndex} {s : State} (h0 : idx ≠ 0) (h : idx = 1 ∨ s.proto ≠ .transmitting) :
    hostRead idx s = .next (recordRead idx (registerValue s (hostReg idx)) s) := by
  have hfree : readIsFree s (hostReg idx) = false := by
    simp only [readIsFree, Bool.and_eq_false_iff, beq_eq_false_iff_ne, bne_eq_false_iff_eq, hostReg_eq_status_iff]
    exact h.symm
  simp [hostRead, (hostReg_eq_cmd_iff idx).not.mpr h0, hfree]

/-- Every register but CMD answers a read (R40). -/
theorem hostRead_answers {idx : RegIndex} (h0 : idx ≠ 0) (s : State) : ∃ t, hostRead idx s = .next t := by
  by_cases h : idx = 1 ∨ s.proto ≠ .transmitting
  · exact ⟨_, hostRead_register h0 h⟩
  · rw [not_or, not_not] at h
    exact ⟨_, hostRead_free h0 h.1 h.2⟩

/-- The fields of STATUS as a number: ERR above the two bits of STATE (R24). -/
theorem statusWord_toNat (e : BitVec 3) (p : ProtoState) : (statusWord e p).toNat = 4 * e.toNat + p.code.toNat := by
  cases p <;> revert e <;> decide

/-- A byte read as a register keeps its value (R28, R29). -/
theorem zext16_toNat (b : Byte) : (zext16 b).toNat = b.toNat := by
  rw [zext16, BitVec.zeroExtend, BitVec.toNat_setWidth, Nat.mod_eq_of_lt (by omega)]

/-- Settles O10: CMD is the register of index 0 and of no other, and only CMD's read and the other registers' writes are
refused. -/
theorem portAccessesWithoutMeaningAreRefused : Obligations.PortAccessesWithoutMeaningAreRefused := by
  intro s idx v ins
  refine ⟨fun h0 hin => step_hostWrite_readOnly hin h0, fun hin => ?_, fun h0 hin => ?_⟩
  · rw [step_hostRead hin, hostRead_cmd]
  · rw [step_hostRead hin]
    exact hostRead_answers h0 _

/-- Settles O11: outside a running command, and for STATUS always, a read records what the register holds. -/
theorem hostReadsReturnTheRegisters : Obligations.HostReadsReturnTheRegisters := by
  intro s idx ins hin
  have read : idx ≠ 0 → (idx = 1 ∨ s.proto ≠ .transmitting) →
      step s = .next (recordRead idx (registerValue s (hostReg idx)) { s with inputs := ins }) := fun h0 h => by
    rw [step_hostRead hin]
    exact hostRead_register h0 h
  refine ⟨?_, fun hp => ⟨?_, ?_, ?_, ?_, ?_, ?_⟩⟩
  · rintro rfl
    exact ⟨statusWord s.err s.proto, statusWord_toNat _ _, read (by decide) (.inl rfl)⟩
  · rintro rfl
    exact read (by decide) (.inr hp)
  · rintro rfl
    exact read (by decide) (.inr hp)
  · rintro rfl
    exact read (by decide) (.inr hp)
  · rintro rfl
    exact ⟨zext16 s.crc, zext16_toNat _, read (by decide) (.inr hp)⟩
  · rintro rfl
    exact ⟨zext16 s.pollcnt, zext16_toNat _, read (by decide) (.inr hp)⟩
  · rintro rfl
    exact read (by decide) (.inr hp)

/-! ### Commands while a command runs -/

/-- While a command runs a CMD write is refused, its word reserved or not, held or not (R39, R80). -/
theorem step_cmdWrite_transmitting {s : State} {w : Word} {ins : List Input} (hp : s.proto = .transmitting)
    (hin : CmdWrite s w ins) : ∃ r, step s = .refused r := by
  have hadm : ∀ i, admits i s.proto = false := fun i =>
    Bool.eq_false_iff.mpr fun ha => ne_transmitting_of_admits ha hp
  cases hd : decodeCommand w with
  | error e => exact ⟨refusalOf e, hin.elim (step_hostWrite_reserved · hd) (step_hostWriteHeld_reserved · hd)⟩
  | ok i =>
    refine ⟨.notAdmitted s.proto, ?_⟩
    rcases hin with hin | hin
    · rw [step_hostWrite hin hd, exec_command _ _ (decodeCommand_isCommand hd)]
      exact runCommand_refused i { s with inputs := ins } (hadm i)
    · rw [step_hostWriteHeld hin hd]
      exact holdCommand_refused i { s with inputs := ins } (hadm i)

/-- Settles O12: the free value of a read, and the refusal of CMD writes. -/
theorem readsWhileACommandRunsAreFree : Obligations.ReadsWhileACommandRunsAreFree := by
  intro s idx w ins hp
  refine ⟨fun h2 hin => ?_, step_cmdWrite_transmitting hp⟩
  have h0 : idx ≠ 0 := by bv_omega
  have h1 : idx ≠ 1 := by bv_omega
  rw [step_hostRead hin]
  exact hostRead_free (s := { s with inputs := ins }) h0 h1 hp

/-- Settles O8: a decoded CMD write is `exec`, and a held one `beginCommand` where the admission table says so. -/
theorem stepRunsTheDecodedCommand : Obligations.StepRunsTheDecodedCommand := by
  intro s w i ins hd
  refine ⟨fun hin => step_hostWrite hin hd, fun hin => ⟨fun ha => ?_, fun ha => ?_⟩⟩
  · rw [step_hostWriteHeld hin hd]
    exact holdCommand_admitted i { s with inputs := ins } ((admits_iff i s.proto).mpr ha)
  · rw [step_hostWriteHeld hin hd]
    exact holdCommand_refused i { s with inputs := ins } (Bool.eq_false_iff.mpr ((admits_iff i s.proto).not.mpr ha))

end Sys2Proof.Machine
end

section
/-! SUPPORT. The frame of a command (10_state.md R25, R26, R33 to R36): what it keeps from its start on, carried through
every stretch of its text and every response. -/

namespace Sys2Proof.Machine

open Sys2Proof

/-- The commands that write VALUE (R25). -/
def writesValue : Instr → Bool
  | .getValue _ | .readByte _ | .readMeas | .mirror _ => true
  | _ => false

/-- Only the commands of R25 write VALUE at completion. -/
theorem writeResults_value {q : Seq} (h : writesValue q.cmd = false) (s : State) : (writeResults q s).value = s.value := by
  cases hc : q.cmd with
  | getValue | readByte | readMeas | mirror => rw [hc] at h; cases h
  | _ => simp [writeResults, hc]

/-- Only GET_VALUES writes TEMP_RAW and HUM_RAW at completion (R26). -/
theorem writeResults_temps {q : Seq} (h : q.cmd ≠ .getValues) (s : State) :
    (writeResults q s).tempRaw = s.tempRaw ∧ (writeResults q s).humRaw = s.humRaw := by
  cases hc : q.cmd with
  | getValues => exact absurd hc h
  | _ => simp [writeResults, hc]

/-- What the command `i`, started in `s`, has kept in `t`, while it runs and when it has ended. -/
structure CommandFrame (i : Instr) (s t : State) : Prop where
  cmd : ∀ q, t.seq = some q → q.cmd = i
  params : t.params = s.params
  reads : t.reads = s.reads
  draws : t.draws = s.draws
  trace : ∃ new, t.trace = new ++ s.trace
  value : writesValue i = false → t.value = s.value
  temps : i ≠ .getValues → t.tempRaw = s.tempRaw ∧ t.humRaw = s.humRaw
  pollcnt : (textOf s.params i).any Stmt.writesPollcnt = false → t.pollcnt = s.pollcnt
  crc : (textOf s.params i).any Stmt.writesCrc = false → t.crc = s.crc
  lines : (textOf s.params i).any Stmt.drivesLine = false → t.clk = s.clk ∧ t.dat = s.dat
  request : (textOf s.params i).any Stmt.drivesLine = false →
    ∀ w r, t.request = some w → decodeRequest w = .ok r → isLineAction r = false

section
variable {i : Instr} {s t : State}

/-- The start of a command writes STATE and SEQ only (R205). -/
theorem CommandFrame.start (i : Instr) (s : State) : CommandFrame i s (beginCommand i s) where
  cmd := by rintro q ⟨⟩; rfl
  params := rfl
  reads := rfl
  draws := rfl
  trace := ⟨[], rfl⟩
  value := fun _ => rfl
  temps := fun _ => ⟨rfl, rfl⟩
  pollcnt := fun _ => rfl
  crc := fun _ => rfl
  lines := fun _ => ⟨rfl, rfl⟩
  request := fun _ => nofun

/-- A command whose text writes no CRC keeps it when it fails (R145). -/
theorem CommandFrame.inHandshake_eq_false (h : CommandFrame i s t)
    (hw : (textOf s.params i).any Stmt.writesCrc = false) : inHandshake t = false :=
  Machine.inHandshake_eq_false fun q hq => by rw [h.params, h.cmd q hq]; exact hw

/-- A failure writes no result register (R208). -/
theorem CommandFrame.raise (h : CommandFrame i s t) (e : Failure) : CommandFrame i s (raise e t) where
  cmd := nofun
  params := h.params
  reads := h.reads
  draws := h.draws
  trace := h.trace
  value := h.value
  temps := h.temps
  pollcnt := h.pollcnt
  crc := fun hw => by simpa [h.inHandshake_eq_false hw] using h.crc hw
  lines := h.lines
  request := fun _ => nofun

/-- Completion writes the command's own result registers (R207). -/
theorem CommandFrame.complete (h : CommandFrame i s t) {q : Seq} (hq : q.cmd = i) : CommandFrame i s (complete q t) where
  cmd := nofun
  params := (complete_params q t).trans h.params
  reads := (complete_reads q t).trans h.reads
  draws := (complete_draws q t).trans h.draws
  trace := by rw [complete_trace]; exact h.trace
  value := fun hv => (writeResults_value (hq ▸ hv) t).trans (h.value hv)
  temps := fun hi => by
    obtain ⟨htemp, hhum⟩ := writeResults_temps (hq ▸ hi) t
    exact ⟨htemp.trans (h.temps hi).1, hhum.trans (h.temps hi).2⟩
  pollcnt := fun hw => (complete_pollcnt q t).trans (h.pollcnt hw)
  crc := fun hw => (complete_crc q t).trans (h.crc hw)
  lines := by rw [complete_clk, complete_dat]; exact h.lines
  request := fun _ => nofun

/-- A request issued (R100), a line action only where the text has one. -/
theorem CommandFrame.awaitAnswer (h : CommandFrame i s t) {q : Seq} (hq : q.cmd = i) {r : Request}
    (hr : (textOf s.params i).any Stmt.drivesLine = false → isLineAction r = false) :
    CommandFrame i s (awaitAnswer r q t) where
  cmd := by rintro _ ⟨⟩; exact hq
  params := h.params
  reads := h.reads
  draws := h.draws
  trace := h.trace
  value := h.value
  temps := h.temps
  pollcnt := h.pollcnt
  crc := h.crc
  lines := h.lines
  request := by
    rintro hl _ r' ⟨⟩ hd
    rw [decodeRequest_word] at hd
    cases hd
    exact hr hl

/-- The accumulator, the poll counter and the sequencer as the command's text may write them. -/
theorem CommandFrame.write (h : CommandFrame i s t) {c : Accum} {p : Byte} {x : Option Seq}
    (hc : (textOf s.params i).any Stmt.writesCrc = false → c = t.crc)
    (hp : (textOf s.params i).any Stmt.writesPollcnt = false → p = t.pollcnt) (hx : ∀ q, x = some q → q.cmd = i) :
    CommandFrame i s { t with crc := c, pollcnt := p, seq := x } where
  cmd := hx
  params := h.params
  reads := h.reads
  draws := h.draws
  trace := h.trace
  value := h.value
  temps := h.temps
  pollcnt := fun hw => (hp hw).trans (h.pollcnt hw)
  crc := fun hw => (hc hw).trans (h.crc hw)
  lines := h.lines
  request := h.request

/-- The statements up to the next request, the end of the text or a failure. -/
theorem CommandFrame.advanceFrom (h : CommandFrame i s t) {q : Seq} (hq : q.cmd = i) :
    CommandFrame i s (advanceFrom q t) := by
  obtain ⟨e, q', c, p, hs⟩ := advance_stretch (seqRest t.params q) q t
  have rest : ∀ f : Stmt → Bool, (textOf s.params i).any f = false → (seqRest t.params q).any f = false :=
    fun f hf => seqRest_any (by rw [h.params, hq]; exact hf)
  have hq' : q'.cmd = i := hs.cmd.trans hq
  have hw : ∀ x : Option Seq, (∀ q, x = some q → q.cmd = i) →
      CommandFrame i s { t with crc := c, pollcnt := p, seq := x } :=
    fun x => h.write (fun hf => hs.crc (rest _ hf)) (fun hf => hs.pollcnt (rest _ hf))
  have hadv : Machine.advanceFrom q t = e.reached q' { t with crc := c, pollcnt := p } := hs.advance_eq t.inputs
  rw [hadv]
  cases e with
  | completed => exact (hw t.seq h.cmd).complete hq'
  | raised e => exact (hw (some q') (by rintro _ ⟨⟩; exact hq')).raise e
  | waiting r => exact (hw t.seq h.cmd).awaitAnswer hq' fun hf => hs.lines r rfl (rest _ hf)

/-- A failed request's record and line record (R104). -/
theorem CommandFrame.lineFailed (h : CommandFrame i s t) {w : ReqWord} {r : Request} (p : Word) (hw : t.request = some w)
    (hd : decodeRequest w = .ok r) : CommandFrame i s (lineFailed r (recordEvent r p t)) where
  cmd := by simpa using h.cmd
  params := by simpa using h.params
  reads := by simpa using h.reads
  draws := by simpa using h.draws
  trace := by
    obtain ⟨new, hnew⟩ := h.trace
    exact ⟨{ request := r.word, response := some p } :: new, by simp [hnew]⟩
  value := by simpa using h.value
  temps := by simpa using h.temps
  pollcnt := by simpa using h.pollcnt
  crc := by simpa using h.crc
  lines := fun hl => by
    rw [lineFailed_lines (h.request hl w r hw hd)]
    exact h.lines hl
  request := fun _ => by simp

/-- A successful request's record and line record (R105 to R111). -/
theorem CommandFrame.lineDone (h : CommandFrame i s t) {w : ReqWord} {r : Request} (p : Word) (l : Bool)
    (hw : t.request = some w) (hd : decodeRequest w = .ok r) : CommandFrame i s (lineDone r l (recordEvent r p t)) where
  cmd := by
    intro q hq
    cases hs : t.seq with
    | none => cases r <;> simp [Machine.lineDone, hs] at hq
    | some q0 =>
      obtain ⟨l', hl'⟩ := lineDone_seq_some r l (s := recordEvent r p t) hs
      rw [hl'] at hq
      cases hq
      exact h.cmd q0 hs
  params := by simpa using h.params
  reads := by simpa using h.reads
  draws := by simpa using h.draws
  trace := by
    obtain ⟨new, hnew⟩ := h.trace
    exact ⟨{ request := r.word, response := some p } :: new, by simp [hnew]⟩
  value := by simpa using h.value
  temps := by simpa using h.temps
  pollcnt := by simpa using h.pollcnt
  crc := by simpa using h.crc
  lines := fun hl => by
    obtain ⟨hclk, hdat⟩ := lineDone_lines (h.request hl w r hw hd) l (recordEvent r p t)
    exact ⟨hclk.trans (h.lines hl).1, hdat.trans (h.lines hl).2⟩
  request := fun _ => by simp

/-- An answered request, and what the command does up to the next (R27, R101). -/
theorem CommandFrame.resume_answerRequest (h : CommandFrame i s t) {w : ReqWord} {r : Request} (d : Draw)
    (hw : t.request = some w) (hd : decodeRequest w = .ok r) : CommandFrame i s (resume (answerRequest r d t)) := by
  have hdone := h.lineDone (respond r d) (responseLevel (respond r d)) hw hd
  have hfailed := h.lineFailed (respond r d) hw hd
  cases hq : t.seq with
  | none =>
    have hseq : (answerRequest r d t).seq = none :=
      (answerRequest_seq r d t).elim id fun hok => by simp [hok.2, hq]
    rw [resume_none _ hseq]
    cases hf : responseFail (respond r d) with
    | true => rw [answerRequest, takeResponse_fail t hf]; exact hfailed.raise _
    | false => rw [answerRequest, takeResponse_ok t hf]; exact hdone
  | some q =>
    obtain ⟨e, hgo⟩ | ⟨l, hgo⟩ := resume_takeResponse r (respond r d) hq
    · rw [answerRequest, hgo]
      exact hfailed.raise e
    · rw [answerRequest, hgo]
      exact hdone.advanceFrom (h.cmd q hq)

end

/-- The frame of a command that has been run as far as the answers go. -/
theorem commandFrame_of_runCommand {i : Instr} {s t : State} (h : runCommand i s = .next t) : CommandFrame i s t := by
  obtain ⟨-, rfl⟩ := runCommand_next i s t h
  exact drain_keeps (CommandFrame i s) (fun _ _ h => ⟨h.cmd, h.params, h.reads, h.draws, h.trace, h.value, h.temps,
    h.pollcnt, h.crc, h.lines, h.request⟩) (fun _ _ _ d h hw hd => h.resume_answerRequest d hw hd) _ _
    ((CommandFrame.start i s).advanceFrom rfl)

/-- Settles O47: the frame carried through the command's run, for what each text is seen to write. -/
theorem commandFrames : Obligations.CommandFrames := by
  intro i s t hi hexec
  rw [exec_command i s hi] at hexec
  have h := commandFrame_of_runCommand hexec
  refine ⟨fun hv ha hm hb => h.value ?_, h.temps, fun hp hv hvs => h.pollcnt (writesPollcnt_textOf _ hp hv hvs),
    fun hc => h.crc ?_, fun hl => h.lines ?_, h.params, h.reads, h.draws, h.trace⟩
  · cases i with
    | getValue k => exact absurd rfl (hv k)
    | readByte a => exact absurd rfl (ha a)
    | readMeas => exact absurd rfl hm
    | mirror b => exact absurd rfl (hb b)
    | _ => rfl
  · obtain rfl | ⟨a, rfl⟩ | rfl | ⟨b, rfl⟩ := hc
    · rfl
    · exact writesCrc_readByteText s.params a
    · rfl
    · rfl
  · obtain rfl | ⟨b, rfl⟩ | ⟨b, rfl⟩ := hl <;> rfl

end Sys2Proof.Machine
end

section
/-! SUPPORT. A command run in parts (10_state.md R27, 20_memory.md R62, log entries 2 and 17): the events to come have no
part in what an answer or a statement does, so the drain of the answers can be cut anywhere. -/

namespace Sys2Proof.Machine

open Sys2Proof

/-! ### The events to come -/

/-- How a stretch ends does not depend on the events to come. -/
theorem Ending.reached_inputs (e : Ending) (q : Seq) (s : State) (ins : List Input) :
    e.reached q { s with inputs := ins } = { e.reached q s with inputs := ins } := by
  cases e with
  | completed => simp only [reached, complete, writeResults]; cases q.cmd <;> rfl
  | raised e => rfl
  | waiting r => rfl

theorem advance_inputs (l : List Stmt) (q : Seq) (s : State) (ins : List Input) :
    advance l q { s with inputs := ins } = { advance l q s with inputs := ins } := by
  obtain ⟨e, q', c, p, h⟩ := advance_stretch l q s
  have hs : advance l q s = e.reached q' { s with crc := c, pollcnt := p } := h.advance_eq s.inputs
  rw [h.advance_eq, hs]
  exact e.reached_inputs q' { s with crc := c, pollcnt := p } ins

theorem takeResponse_inputs (r : Request) (p : Word) (s : State) (ins : List Input) :
    takeResponse r p { s with inputs := ins } = { takeResponse r p s with inputs := ins } := by
  cases hf : responseFail p with
  | true =>
    rw [takeResponse_fail _ hf, takeResponse_fail _ hf]
    cases r <;> rfl
  | false =>
    rw [takeResponse_ok _ hf, takeResponse_ok _ hf]
    cases r <;> rfl

theorem resume_inputs (s : State) (ins : List Input) :
    resume { s with inputs := ins } = { resume s with inputs := ins } := by
  obtain hq | ⟨q, hq⟩ := Option.eq_none_or_eq_some s.seq
  · rw [resume_none s hq]
    exact resume_none { s with inputs := ins } hq
  · rw [resume_some s q hq]
    exact (resume_some { s with inputs := ins } q hq).trans (advance_inputs _ _ s ins)

/-- An answer acted on, whatever events come after it. -/
theorem resume_answerRequest_inputs (r : Request) (d : Draw) (s : State) (ins : List Input) :
    resume (answerRequest r d { s with inputs := ins }) = { resume (answerRequest r d s) with inputs := ins } := by
  rw [answerRequest, takeResponse_inputs, resume_inputs]
  rfl

/-- An answer to the outstanding request is taken, the events after it then drained (R62). -/
theorem drain_answer_ok {s : State} {w : ReqWord} {r : Request} (hw : s.request = some w) (hd : decodeRequest w = .ok r)
    (d : Draw) (ins : List Input) : drain (.answer d :: ins) s = drain ins (resume (answerRequest r d s)) := by
  simp [drain, hw, hd]

/-- An answer to a request word R82 never issues is not taken (log entry 10). -/
theorem drain_answer_error {s : State} {w : ReqWord} {e : DecodeError} (hw : s.request = some w)
    (hd : decodeRequest w = .error e) (d : Draw) (ins : List Input) :
    drain (.answer d :: ins) s = { s with inputs := .answer d :: ins } := by
  simp [drain, hw, hd]

/-- The drain takes the events it is given, not those the state holds. -/
theorem drain_inputs (ins : List Input) : ∀ (s : State) (x : List Input), drain ins { s with inputs := x } = drain ins s := by
  induction ins with
  | nil => exact fun _ _ => rfl
  | cons y ins ih =>
    intro s x
    cases y with
    | answer d =>
      obtain hr | ⟨w, hr⟩ := Option.eq_none_or_eq_some s.request
      · rw [drain_idle _ s hr]
        exact drain_idle _ { s with inputs := x } hr
      · cases hd : decodeRequest w with
        | ok r =>
          rw [drain_answer_ok hr hd, drain_answer_ok (s := { s with inputs := x }) hr hd, resume_answerRequest_inputs, ih]
        | error e =>
          rw [drain_answer_error hr hd]
          exact drain_answer_error (s := { s with inputs := x }) hr hd d ins
    | hostWrite | hostWriteHeld | hostRead | por | answerHeld | proceed => rfl

/-- A command goes on through the events it is given. -/
theorem runOn_inputs (s : State) (ins : List Input) : runOn { s with inputs := ins } = drain ins s :=
  drain_inputs ins s ins

/-- The start of a command does not depend on the events to come. -/
theorem startCommand_inputs (i : Instr) (s : State) (ins : List Input) :
    startCommand i { s with inputs := ins } = { startCommand i s with inputs := ins } :=
  advance_inputs _ _ (beginCommand i s) ins

/-- A command runs from its start through the events to come. -/
theorem runOn_startCommand (i : Instr) (s : State) : runOn (startCommand i s) = drain s.inputs (startCommand i s) := by
  have h := runOn_inputs (startCommand i s) s.inputs
  rwa [← startCommand_inputs] at h

/-- A drain that ends at an outstanding request has taken all its answers, and more of them can be drained after it. -/
theorem drain_append (ds : List Draw) (ys : List Input) (r : Request) :
    ∀ s : State, (drain (answers ds) s).request = some r.word →
      drain (answers ds ++ ys) s = drain ys (drain (answers ds) s) := by
  induction ds with
  | nil => exact fun s _ => (drain_inputs ys s []).symm
  | cons d ds ih =>
    intro s h
    have hsplit : answers (d :: ds) = .answer d :: answers ds := rfl
    rw [hsplit] at h ⊢
    obtain hr | ⟨w, hr⟩ := Option.eq_none_or_eq_some s.request
    · rw [drain_idle _ s hr] at h
      exact absurd (hr.symm.trans h) nofun
    · cases hd : decodeRequest w with
      | error e =>
        rw [drain_answer_error hr hd] at h
        obtain rfl : w = r.word := Option.some.inj (hr.symm.trans h)
        rw [decodeRequest_word] at hd
        cases hd
      | ok r' =>
        rw [drain_answer_ok hr hd] at h
        rw [List.cons_append, drain_answer_ok hr hd, drain_answer_ok hr hd]
        exact ih _ h

/-! ### A command that runs waits for an answer -/

/-- No command runs, or one runs, admitted where it started, and waits for the answer to its request. -/
def Paused (s : State) : Prop :=
  (s.proto ≠ .transmitting ∧ s.seq = none ∧ s.request = none) ∨
    ∃ (q : Seq) (r : Request), s.seq = some q ∧ q.reply = none ∧ admits q.cmd q.origin = true ∧ s.request = some r.word

theorem paused_raise (e : Failure) (s : State) : Paused (raise e s) :=
  .inl ⟨failureState_ne_transmitting _, rfl, rfl⟩

theorem paused_advance (l : List Stmt) {q : Seq} (s : State) (hr : q.reply = none) (ha : admits q.cmd q.origin = true) :
    Paused (advance l q s) := by
  obtain ⟨e, q', c, p, h⟩ := advance_stretch l q s
  have ha' : admits q'.cmd q'.origin = true := by rw [h.cmd, h.origin]; exact ha
  have hs : advance l q s = e.reached q' { s with crc := c, pollcnt := p } := h.advance_eq s.inputs
  rw [hs]
  cases e with
  | completed => exact .inl ⟨successState_ne_transmitting ha', rfl, rfl⟩
  | raised e => exact paused_raise e _
  | waiting r => exact .inr ⟨q', r, rfl, h.reply.trans hr, ha', rfl⟩

/-- An answer to the request leads to the next request or to the command's end. -/
theorem Paused.resume_answerRequest {s : State} {w : ReqWord} (h : Paused s) (hw : s.request = some w) (r : Request)
    (d : Draw) : Paused (resume (answerRequest r d s)) := by
  obtain ⟨-, -, hnone⟩ | ⟨q, -, hq, hreply, hadm, -⟩ := h
  · rw [hnone] at hw
    cases hw
  · obtain ⟨e, hgo⟩ | ⟨l, hgo⟩ := resume_takeResponse r (respond r d) hq
    · rw [answerRequest, hgo]
      exact paused_raise e _
    · rw [answerRequest, hgo]
      exact paused_advance _ _ hreply hadm

/-- A command that was admitted pauses at a request, or has ended. -/
theorem paused_drain_startCommand {i : Instr} {s : State} (h : admits i s.proto = true) (ins : List Input) :
    Paused (drain ins (startCommand i s)) :=
  drain_keeps Paused (fun _ _ h => h) (fun _ _ r d h hw _ => h.resume_answerRequest hw r d) ins _
    (paused_advance _ _ rfl h)

/-! ### Held and let go on -/

/-- A command run on some of its answers, and stepped on through the rest, does what it does on all of them. -/
theorem step_suspended {i : Instr} {s t : State} {xs zs : List Draw} {z : Draw} {rest : List Input}
    (hin : s.inputs = answers (xs ++ z :: zs) ++ rest) (hrun : runCommand i { s with inputs := answers xs } = .next t)
    (hp : t.proto = .transmitting) : step { t with inputs := answers (z :: zs) ++ rest } = runCommand i s := by
  obtain ⟨hadm, ht⟩ := runCommand_next _ _ _ hrun
  rw [startCommand_inputs, runOn_inputs] at ht
  have hpaused : Paused t := ht ▸ paused_drain_startCommand (s := s) hadm (answers xs)
  obtain ⟨hne, -, -⟩ | ⟨q, r, hq, hreply, -, hreq⟩ := hpaused
  · exact absurd hp hne
  have hall : s.inputs = answers xs ++ .answer z :: (answers zs ++ rest) := by simp [hin, answers]
  have hawait : awaited { t with inputs := answers (z :: zs) ++ rest } = .ok r :=
    awaited_word _ r hreq ((pendingReply_some _ q hq).trans hreply)
  rw [step_answer rfl hawait, runCommand_admitted i s hadm]
  congr 1
  calc runOn (resume (answerRequest r z { t with inputs := answers zs ++ rest }))
      = drain (answers zs ++ rest) (resume (answerRequest r z t)) := by
        rw [resume_answerRequest_inputs, runOn_inputs]
    _ = drain (.answer z :: (answers zs ++ rest)) t := (drain_answer r z _ t hreq).symm
    _ = runOn (startCommand i s) := by
        rw [runOn_startCommand, hall, drain_append xs _ r _ (ht ▸ hreq), ← ht]

/-- A command held at its start is TRANSMITTING, and let go on runs as it does when it is not held (R205). -/
theorem step_commandHeld {i : Instr} {s : State} {w : Word} {ins : List Input} (hw : i.commandWord? = some w)
    (hadm : admits i s.proto = true) (hin : s.inputs = .hostWriteHeld w :: .proceed :: ins) :
    ∃ t, step s = .next t ∧ t.proto = .transmitting ∧ step t = runCommand i { s with inputs := ins } := by
  refine ⟨beginCommand i { s with inputs := .proceed :: ins }, ?_, rfl, ?_⟩
  · rw [step_hostWriteHeld hin (decodeCommand_commandWord? hw)]
    exact holdCommand_admitted i { s with inputs := .proceed :: ins } hadm
  · rw [step_proceed rfl, runCommand_admitted i { s with inputs := ins } hadm]
    exact congrArg _ (proceed_beginCommand i { s with inputs := ins })

/-- An answer to a request that waits for one leaves the running command its response pending (R231). -/
theorem holdAnswer_awaited {s : State} {q : Seq} {r : Request} (ha : awaited s = .ok r) (hq : s.seq = some q) (d : Draw) :
    holdAnswer d s = .next { s with seq := some { q with reply := some (respond r d) } } := by
  simp [holdAnswer, ha, hq]

/-- Going on with a pending response is acting on it as if it had just come. -/
theorem proceed_pending {s : State} {q : Seq} {r : Request} (p : Word) (hq : s.seq = some q) (hreply : q.reply = none)
    (hw : s.request = some r.word) :
    proceed { s with seq := some { q with reply := some p } } = runOn (resume (takeResponse r p s)) := by
  have hback : { s with seq := some { q with reply := none } } = s := by
    cases q; cases hreply; cases s; cases hq; rfl
  rw [proceed_reply r p q { s with seq := some { q with reply := some p } } hw rfl, hback]

/-- An answer received and held leaves the command TRANSMITTING, and let go on acts as it does when it is not held
(R231). -/
theorem step_answerHeld_proceed {s : State} {q : Seq} {r : Request} {d : Draw} {ins : List Input}
    (hp : s.proto = .transmitting) (hq : s.seq = some q) (hreply : q.reply = none) (hw : s.request = some r.word)
    (hin : s.inputs = .answerHeld d :: .proceed :: ins) :
    ∃ t, step s = .next t ∧ t.proto = .transmitting ∧ step t = step { s with inputs := .answer d :: ins } := by
  have await : ∀ x, awaited { s with inputs := x } = .ok r :=
    fun x => awaited_word { s with inputs := x } r hw ((pendingReply_some _ q hq).trans hreply)
  refine ⟨{ s with seq := some { q with reply := some (respond r d) }, inputs := .proceed :: ins }, ?_, hp, ?_⟩
  · rw [step_answerHeld hin]
    exact holdAnswer_awaited (await (.proceed :: ins)) hq d
  · rw [step_proceed rfl, step_answer rfl (await _)]
    exact congrArg _ (proceed_pending (s := { s with inputs := ins }) (respond r d) hq hreply hw)

/-- Settles O49: the answers cut anywhere, a command held at its start, and one held at an answer. -/
theorem suspendedRunEqualsWholeRun : Obligations.SuspendedRunEqualsWholeRun := by
  refine ⟨fun i s t xs zs z rest hi hin hexec hp => ?_, fun i s w ins hw hadm hin => ?_,
    fun s q r d ins hp hq hreply hw hin => step_answerHeld_proceed hp hq hreply hw hin⟩
  · rw [exec_command _ _ hi] at hexec ⊢
    exact step_suspended hin hexec hp
  · rw [exec_command _ _ (isCommand_of_commandWord? hw)]
    exact step_commandHeld hw ((admits_iff i s.proto).mpr hadm) hin

end Sys2Proof.Machine
end

section
/-! SUPPORT. The length of the operation texts (10_state.md R27, log entry 9). -/

namespace Sys2Proof.Machine

open Sys2Proof

theorem length_tStartText (p : Params) : (tStartText p).length = 13 := rfl

theorem length_sendByteText (p : Params) (v : Byte) : (sendByteText p v).length = 59 := rfl

theorem length_readByteText (p : Params) (a : Bool) : (readByteText p a).length = if a then 57 else 53 := by
  cases a <;> rfl

theorem length_resetText (p : Params) : (resetText p).length = 73 + 4 * p.resetToggles := by
  have hpulse : (resetPulse p).length = 4 := rfl
  simp only [resetText, List.length_append, List.length_flatten, List.map_replicate, List.sum_replicate, hpulse,
    length_tStartText, length_sendByteText, List.length_singleton, smul_eq_mul]
  omega

theorem length_getValueText (p : Params) (k : Kind) : (getValueText p k).length = 247 := by
  simp [getValueText, startMeasText, pollText, readMeasText, length_tStartText, length_sendByteText,
    length_readByteText]

/-- The longest texts are GET_VALUES's, of 495 statements, and RESET's, whose length RESET_TOGGLES gives. -/
theorem length_textOf_le (p : Params) (i : Instr) : (textOf p i).length ≤ max 495 (73 + 4 * p.resetToggles) := by
  cases i with
  | reset => exact (length_resetText p).le.trans (le_max_right _ _)
  | getValue k => exact (length_getValueText p k).le.trans (le_max_of_le_left (by decide))
  | getValues =>
    refine le_max_of_le_left ?_
    simp [textOf, getValuesText, length_getValueText]
  | startMeas k =>
    refine le_max_of_le_left ?_
    simp [textOf, startMeasText, length_tStartText, length_sendByteText]
  | readByte a =>
    refine le_max_of_le_left ?_
    cases a <;> simp [textOf, length_readByteText]
  | readMeas =>
    refine le_max_of_le_left ?_
    simp [textOf, readMeasText, length_readByteText]
  | sendByte b => exact (length_sendByteText p b).le.trans (le_max_of_le_left (by decide))
  | tstart => exact (length_tStartText p).le.trans (le_max_of_le_left (by decide))
  | init | poll | crcMutate | mirror | clkLow | clkHigh | datLow | datHigh | datRelease | sample | wait =>
    exact le_max_of_le_left (by simp [textOf, initText, pollText, crcMutateText, mirrorText])

/-- Settles O51: with nine pulses (R6) the bound is 495. -/
theorem positionsFitInTenBits : Obligations.PositionsFitInTenBits := by
  intro p i hn
  have htoggles : p.resetToggles = 9 := congrArg Literals.resetToggles hn
  have hle := length_textOf_le p i
  rw [htoggles] at hle
  exact Nat.lt_of_le_of_lt hle (by decide)

end Sys2Proof.Machine
end

section
/-! SUPPORT. A running command seen from the host (20_memory.md R62 to R64, 60_exceptions.md R205 to R208): its results
are not there before it completes, and no access of the host has an effect on it. -/

namespace Sys2Proof.Machine

open Sys2Proof

/-! ### A command runs with its results hidden -/

/-- The result registers, ERR and FAULT_INFO of `t` are those of `s` (R205). -/
structure SameOutcome (s t : State) : Prop where
  results : SameResults s t
  err : t.err = s.err
  faultInfo : t.faultInfo = s.faultInfo

/-- From `s` to `t` the command `i` has ended, or it still runs with its start recorded and its results hidden. -/
def EndedOrHidden (i : Instr) (s t : State) : Prop :=
  (t.proto ≠ .transmitting ∧ t.request = none) ∨
    SameOutcome s t ∧ ∃ q, t.seq = some q ∧ q.cmd = i ∧ q.origin = s.proto

section
variable {i : Instr} {s t : State}

theorem endedOrHidden_raise (e : Failure) : EndedOrHidden i s (raise e t) :=
  .inl ⟨failureState_ne_transmitting _, rfl⟩

/-- A stretch of statements writes a result, ERR or FAULT_INFO only where the command ends (R206 to R208). -/
theorem SameOutcome.advanceFrom (h : SameOutcome s t) {q : Seq} (hcmd : q.cmd = i) (horigin : q.origin = s.proto)
    (hadm : admits i s.proto = true) : EndedOrHidden i s (advanceFrom q t) := by
  obtain ⟨q', c, p, hc, ho, hdone | ⟨e, hfail⟩ | ⟨r, hwait⟩⟩ := advance_cases (seqRest t.params q) q t
  · have hne : successState q'.cmd q'.origin ≠ .transmitting := by
      rw [hc, ho, hcmd, horigin]
      exact successState_ne_transmitting hadm
    rw [Machine.advanceFrom, hdone]
    exact .inl ⟨hne, rfl⟩
  · rw [Machine.advanceFrom, hfail]
    exact endedOrHidden_raise e
  · rw [Machine.advanceFrom, hwait]
    exact .inr ⟨⟨h.results, h.err, h.faultInfo⟩, q', rfl, hc.trans hcmd, ho.trans horigin⟩

/-- A request that succeeds writes no result, ERR or FAULT_INFO (R101). -/
theorem SameOutcome.lineDone (h : SameOutcome s t) (r : Request) (l : Bool) (p : Word) :
    SameOutcome s (lineDone r l (recordEvent r p t)) where
  results := by simpa [SameResults] using h.results
  err := by simpa using h.err
  faultInfo := by simpa using h.faultInfo

theorem EndedOrHidden.setInputs (h : EndedOrHidden i s t) (ins : List Input) :
    EndedOrHidden i s { t with inputs := ins } :=
  h.imp_right (And.imp_left fun o => ⟨o.results, o.err, o.faultInfo⟩)

/-- An answer acted on ends the command or keeps its results hidden. -/
theorem EndedOrHidden.resume_answerRequest (h : EndedOrHidden i s t) (hadm : admits i s.proto = true) {w : ReqWord}
    (hw : t.request = some w) (r : Request) (d : Draw) : EndedOrHidden i s (resume (answerRequest r d t)) := by
  obtain ⟨-, hnone⟩ | ⟨hsame, q, hq, hcmd, horigin⟩ := h
  · rw [hnone] at hw
    cases hw
  · obtain ⟨e, hgo⟩ | ⟨l, hgo⟩ := resume_takeResponse r (respond r d) hq
    · rw [answerRequest, hgo]
      exact endedOrHidden_raise e
    · rw [answerRequest, hgo]
      exact (hsame.lineDone r _ _).advanceFrom hcmd horigin hadm

/-- The whole of a command's run, as far as it goes. -/
theorem endedOrHidden_of_runCommand (h : runCommand i s = .next t) : EndedOrHidden i s t := by
  obtain ⟨hadm, rfl⟩ := runCommand_next _ _ _ h
  have hbegun : SameOutcome s (beginCommand i s) := ⟨⟨rfl, rfl, rfl⟩, rfl, rfl⟩
  exact drain_keeps (EndedOrHidden i s) (fun _ ins h => h.setInputs ins)
    (fun _ _ r d h hw _ => h.resume_answerRequest hadm hw r d) _ _ (hbegun.advanceFrom rfl rfl hadm)

end

/-- Settles O46: a command that has not ended still hides its results. -/
theorem runningCommandHidesItsResults : Obligations.RunningCommandHidesItsResults := by
  intro i s t hi hexec hp
  rw [exec_command i s hi] at hexec
  obtain ⟨hne, -⟩ | ⟨hsame, hstart⟩ := endedOrHidden_of_runCommand hexec
  · exact absurd hp hne
  · exact ⟨hsame.results, hsame.err, hsame.faultInfo, hstart⟩

/-! ### Nothing the host does reaches a running command -/

/-- Settles O58: a CMD write is not admitted while a command runs, so the step took a read, and a read records at most. -/
theorem runningCommandIsExclusive : Obligations.RunningCommandIsExclusive := by
  intro s t x ins hp hin hanswer hheld hproceed hpor hstep
  cases step_taken hstep with
  | idle h => rw [hin] at h; cases h
  | command h hdec hadm => exact absurd hp (ne_transmitting_of_admits hadm)
  | commandHeld h hdec hadm => exact absurd hp (ne_transmitting_of_admits hadm)
  | read v n h =>
    rw [hin] at h
    cases h
    exact ⟨⟨_, rfl⟩, rfl⟩
  | por h => rw [hin] at h; cases h; exact absurd rfl hpor
  | answer h => rw [hin] at h; cases h; exact absurd rfl (hanswer _)
  | answerHeld h => rw [hin] at h; cases h; exact absurd rfl (hheld _)
  | proceed h => rw [hin] at h; cases h; exact absurd rfl hproceed

end Sys2Proof.Machine
end

section
/-! SUPPORT. The encoding (30_encoding.md R70 to R82): a word and its instruction determine each other, and a command word
with no instruction is refused. -/

namespace Sys2Proof.Machine

open Sys2Proof

/-! ### From an instruction to its word and back -/

/-- The rows of the table: an instruction has a command word, or it is a bus request (R72, R82). -/
theorem commandWord?_or_toInstr (i : Instr) : (∃ w, i.commandWord? = some w) ∨ ∃ r : Request, i = r.toInstr := by
  cases i
  case clkLow => exact .inr ⟨.clkLow, rfl⟩
  case clkHigh => exact .inr ⟨.clkHigh, rfl⟩
  case datLow => exact .inr ⟨.datLow, rfl⟩
  case datHigh => exact .inr ⟨.datHigh, rfl⟩
  case datRelease => exact .inr ⟨.datRelease, rfl⟩
  case sample => exact .inr ⟨.sample, rfl⟩
  case wait d => exact .inr ⟨.wait d, rfl⟩
  all_goals exact .inl ⟨_, rfl⟩

/-- A command's row has 16 bits (R70). -/
theorem width_of_commandWord? {i : Instr} {w : Word} (h : i.commandWord? = some w) : i.width = 16 := by
  have hrow : i.toRequest? = none := Option.isNone_iff_eq_none.mp (isCommand_of_commandWord? h)
  simp [Instr.width, hrow]

theorem encode_of_commandWord? {i : Instr} {w : Word} (h : i.commandWord? = some w) : encode i = w.toNat := by
  simp [encode, h]

/-- A bus request's row has 24 bits (R81). -/
theorem width_toInstr (r : Request) : r.toInstr.width = 24 := by cases r <;> rfl

theorem encode_toInstr (r : Request) : encode r.toInstr = r.word.toNat := by cases r <;> rfl

/-- A row of 16 bits is read by the decoder of command words (R79). -/
theorem decodeTableWord_command {w : Word} {i : Instr} (h : decodeCommand w = .ok i) :
    decodeTableWord 16 w.toNat = some i := by
  simp [decodeTableWord, w.isLt, h]

/-- A row of 24 bits is read by the decoder of bus request words (R82). -/
theorem decodeTableWord_request {q : ReqWord} {r : Request} (h : decodeRequest q = .ok r) :
    decodeTableWord 24 q.toNat = some r.toInstr := by
  simp [decodeTableWord, q.isLt, h]

/-- Settles O3: a command by its command word, a bus request by its request word. -/
theorem everyInstructionDecodesFromItsWord : Obligations.EveryInstructionDecodesFromItsWord := by
  intro i
  obtain ⟨w, hw⟩ | ⟨r, rfl⟩ := commandWord?_or_toInstr i
  · rw [width_of_commandWord? hw, encode_of_commandWord? hw]
    exact ⟨w.isLt, decodeTableWord_command (decodeCommand_commandWord? hw)⟩
  · rw [width_toInstr, encode_toInstr]
    exact ⟨r.word.isLt, decodeTableWord_request (decodeRequest_word r)⟩

/-! ### From a word to its instruction and back -/

/-- A command word is made of its two fields (R71). -/
theorem commandWord_fields (w : Word) : commandWord (opField w) (argField w) = w :=
  (BitVec.extractLsb'_append_extractLsb'_eq_extractLsb' rfl).trans BitVec.extractLsb'_eq_self

/-- Whatever a decoder's result is the instruction of, it has the property `P`. -/
def Decodes {α : Type} (P : α → Prop) (x : Except DecodeError α) : Prop := ∀ a, x = .ok a → P a

section
variable {α : Type} {P : α → Prop}

theorem Decodes.ok {a : α} (h : P a) : Decodes P (.ok a) := by
  rintro _ ⟨⟩
  exact h

theorem Decodes.error {e : DecodeError} : Decodes P (.error e) := by
  rintro _ ⟨⟩

theorem Decodes.ite {c : Prop} [Decidable c] {x y : Except DecodeError α} (hx : c → Decodes P x) (hy : Decodes P y) :
    Decodes P (if c then x else y) := by
  split
  · next hc => exact hx hc
  · exact hy

end

/-- The instruction `i` has the command word `w`. -/
def HasWord (w : Word) (i : Instr) : Prop := i.commandWord? = some w

section
variable {w : Word} {op arg : Byte}

/-- A row of R72 whose fields are those of `w`. -/
theorem HasWord.of_fields {i : Instr} (h : HasWord (commandWord op arg) i) (hop : opField w = op)
    (harg : argField w = arg) : HasWord w i := by
  rwa [← hop, ← harg, commandWord_fields] at h

theorem Decodes.needZero {i : Instr} (h : HasWord (commandWord op 0x00) i) (hop : opField w = op) :
    Decodes (HasWord w) (needZero (opField w) (argField w) i) :=
  .ite (fun harg => .ok (h.of_fields hop harg)) .error

theorem Decodes.needBit {i0 i1 : Instr} (h0 : HasWord (commandWord op 0x00) i0) (h1 : HasWord (commandWord op 0x01) i1)
    (hop : opField w = op) : Decodes (HasWord w) (needBit (opField w) (argField w) i0 i1) :=
  .ite (fun harg => .ok (h0.of_fields hop harg)) <| .ite (fun harg => .ok (h1.of_fields hop harg)) .error

theorem Decodes.anyArg {i : Instr} (h : HasWord (commandWord op (argField w)) i) (hop : opField w = op) :
    Decodes (HasWord w) (.ok i) :=
  .ok (h.of_fields hop rfl)

end

/-- A command word that decodes is the word of what it decodes to, by the rows of R72 in turn (R79). -/
theorem commandWord?_of_decodeCommand {w : Word} {i : Instr} (h : decodeCommand w = .ok i) : i.commandWord? = some w :=
  have all : Decodes (HasWord w) (decodeCommand w) :=
    .ite (.needZero rfl) <| .ite (.needZero rfl) <| .ite (.needBit rfl rfl) <| .ite (.needZero rfl) <|
    .ite (.needZero rfl) <| .ite (.anyArg rfl) <| .ite (.needBit rfl rfl) <| .ite (.needBit rfl rfl) <|
    .ite (.needZero rfl) <| .ite (.needZero rfl) <| .ite (.anyArg rfl) <| .ite (.anyArg rfl) .error
  all i h

/-- A bus request word is made of its two fields (R81). -/
theorem kindField_append_durField (q : ReqWord) : kindField q ++ durField q = q :=
  (BitVec.extractLsb'_append_extractLsb'_eq_extractLsb' rfl).trans BitVec.extractLsb'_eq_self

/-- The request `r` has the kind and the duration of the word `q`. -/
def HasFields (q : ReqWord) (r : Request) : Prop := kindField q = r.kind ∧ durField q = r.dur

/-- A request kind that carries no duration (R82). -/
theorem Decodes.needNoDuration {q : ReqWord} {r : Request} {kind : BitVec 4} (hr : r.kind = kind) (hdur : r.dur = 0)
    (hkind : kindField q = kind) : Decodes (HasFields q) (needNoDuration (kindField q) (durField q) r) :=
  .ite (fun h => .ok ⟨hkind.trans hr.symm, h.trans hdur.symm⟩) .error

/-- The fields of a bus request word are those of the request it decodes to, by the rows of R82 in turn. -/
theorem fields_of_decodeRequest {q : ReqWord} {r : Request} (h : decodeRequest q = .ok r) : HasFields q r :=
  have all : Decodes (HasFields q) (decodeRequest q) :=
    .ite (.needNoDuration rfl rfl) <| .ite (.needNoDuration rfl rfl) <| .ite (.needNoDuration rfl rfl) <|
    .ite (.needNoDuration rfl rfl) <| .ite (.needNoDuration rfl rfl) <| .ite (.needNoDuration rfl rfl) <|
    .ite (fun hkind => .ok ⟨hkind, rfl⟩) .error
  all r h

/-- A bus request word that decodes is the word of what it decodes to (R82). -/
theorem word_of_decodeRequest {q : ReqWord} {r : Request} (h : decodeRequest q = .ok r) : r.word = q := by
  obtain ⟨hkind, hdur⟩ := fields_of_decodeRequest h
  rw [Request.word, ← hkind, ← hdur, kindField_append_durField]

/-- Settles O4, for the two kinds of word. -/
theorem decodedWordsEncodeBack : Obligations.DecodedWordsEncodeBack :=
  ⟨fun _ _ => commandWord?_of_decodeCommand, fun _ _ => word_of_decodeRequest⟩

/-- Settles O5: each of the words is the word of its instruction. -/
theorem specWordsDecode : Obligations.SpecWordsDecode :=
  have decodes := fun i => (everyInstructionDecodesFromItsWord i).2
  ⟨decodes .init, decodes (.getValue .humidity), decodes (.sendByte 0xA5), decodes (.readByte true),
    decodes (.startMeas .temperature), decodes (.crcMutate 0x03), decodes .datRelease, decodes (.wait 20000)⟩

/-! ### Reserved command words (R76, R77) -/

/-- An opcode that R72 does not list is reserved, whatever the argument. -/
theorem decodeCommand_reservedOpcode {w : Word}
    (h : opField w ∉ ([0x01, 0x02, 0x10, 0x11, 0x20, 0x21, 0x22, 0x30, 0x31, 0x32, 0x40, 0x41] : List Byte)) :
    decodeCommand w = .error (.reservedOpcode (opField w)) := by
  simp only [List.mem_cons, List.not_mem_nil, or_false, not_or] at h
  simp only [decodeCommand, h, if_false]

theorem needZero_reserved {op arg : Byte} (h : arg ≠ 0x00) (i : Instr) :
    needZero op arg i = .error (.reservedArgument op arg) := if_neg h

theorem needBit_reserved {op arg : Byte} (h : 0x01 < arg) (i0 i1 : Instr) :
    needBit op arg i0 i1 = .error (.reservedArgument op arg) := by
  have h0 : arg ≠ 0x00 := by bv_omega
  have h1 : arg ≠ 0x01 := by bv_omega
  rw [needBit, if_neg h0, if_neg h1]

/-- The commands with no argument reserve every argument but 0x00 (R73). -/
theorem decodeCommand_reservedArgument_of_ne_zero {w : Word}
    (hop : opField w ∈ ([0x01, 0x02, 0x11, 0x20, 0x31, 0x32] : List Byte)) (harg : argField w ≠ 0x00) :
    decodeCommand w = .error (.reservedArgument (opField w) (argField w)) := by
  simp only [List.mem_cons, List.not_mem_nil, or_false] at hop
  rcases hop with hop | hop | hop | hop | hop | hop <;>
    simp [decodeCommand, hop, needZero_reserved harg]

/-- The commands with a one-bit argument reserve every argument above 0x01 (R73, R74). -/
theorem decodeCommand_reservedArgument_of_one_lt {w : Word} (hop : opField w ∈ ([0x10, 0x22, 0x30] : List Byte))
    (harg : 0x01 < argField w) : decodeCommand w = .error (.reservedArgument (opField w) (argField w)) := by
  simp only [List.mem_cons, List.not_mem_nil, or_false] at hop
  rcases hop with hop | hop | hop <;> simp [decodeCommand, hop, needBit_reserved harg]

/-- A CMD write of a word that does not decode is refused, held or not. -/
theorem step_cmdWrite_reserved {s : State} {w : Word} {ins : List Input} {e : DecodeError} (hin : CmdWrite s w ins)
    (hd : decodeCommand w = .error e) : step s = .refused (refusalOf e) :=
  hin.elim (step_hostWrite_reserved · hd) (step_hostWriteHeld_reserved · hd)

/-- Settles O6: each clause is an error of the decoder, which no state has a part in. -/
theorem reservedCommandWordsAreRefused : Obligations.ReservedCommandWordsAreRefused := by
  intro s w ins hin
  exact ⟨fun hop => step_cmdWrite_reserved hin (decodeCommand_reservedOpcode hop),
    fun hop harg => step_cmdWrite_reserved hin (decodeCommand_reservedArgument_of_ne_zero hop harg),
    fun hop harg => step_cmdWrite_reserved hin (decodeCommand_reservedArgument_of_one_lt hop harg)⟩

/-! ### Admission (R80) -/

/-- Settles O7: a command's row is `runCommand`, which asks the admission table. -/
theorem commandsRunExactlyWhereAdmitted : Obligations.CommandsRunExactlyWhereAdmitted := by
  intro i s hi
  rw [exec_command i s hi, ← admits_iff, Bool.not_eq_true]
  exact ⟨fun ha => ⟨_, runCommand_admitted i s ha⟩, runCommand_refused i s⟩

end Sys2Proof.Machine
end

section
/-! SUPPORT. The legal bus (30_encoding.md R82, R83; 40_bus_primitives.md R100, R102): the requests the operation texts
issue and the responses of the environment are legal, and the issued requests only grow. -/

namespace Sys2Proof.Machine

open Sys2Proof

/-! ### The requests of the operation texts (R82) -/

/-- A statement whose request, if it issues one, is one the engine may issue. -/
def Stmt.wellFormed (p : Params) (st : Stmt) : Bool := st.request?.all (Request.wellFormed p)

@[simp] theorem wellFormed_bus (p : Params) (r : Request) : (Stmt.bus r).wellFormed p = r.wellFormed p := rfl

@[simp] theorem wellFormed_handshake (p : Params) (r : Request) : (Stmt.handshake r).wellFormed p = r.wellFormed p := rfl

/-- The three durations of R82. -/
@[simp] theorem wellFormed_wait_tBit (p : Params) : (Request.wait p.tBit).wellFormed p = true := by
  simp [Request.wellFormed, legalDuration]

@[simp] theorem wellFormed_wait_tPoll (p : Params) : (Request.wait p.tPoll).wellFormed p = true := by
  simp [Request.wellFormed, legalDuration]

@[simp] theorem wellFormed_wait_tInit (p : Params) : (Request.wait p.tInit).wellFormed p = true := by
  simp [Request.wellFormed, legalDuration]

@[simp] theorem wellFormed_dataRequest (p : Params) (b : Bool) : (dataRequest b).wellFormed p = true := by cases b <;> rfl

theorem wellFormed_thenWait (p : Params) (r : Request) : (thenWait p r).all (Stmt.wellFormed p) = r.wellFormed p := by
  simp [thenWait]

theorem wellFormed_handshakeWait (p : Params) (r : Request) :
    (handshakeWait p r).all (Stmt.wellFormed p) = r.wellFormed p := by
  simp [handshakeWait]

theorem wellFormed_tStartText (p : Params) : (tStartText p).all (Stmt.wellFormed p) = true := by
  simp only [tStartText, List.all_append, wellFormed_handshakeWait]
  rfl

theorem wellFormed_sendByteText (p : Params) (v : Byte) : (sendByteText p v).all (Stmt.wellFormed p) = true := by
  have bit : ∀ i, (sendBitText p v i).all (Stmt.wellFormed p) = true := fun i => by
    simp only [sendBitText, List.all_append, wellFormed_thenWait, wellFormed_dataRequest]
    rfl
  simp only [sendByteText, List.all_append, List.all_flatMap, bit, wellFormed_thenWait]
  rfl

theorem wellFormed_readByteText (p : Params) (a : Bool) : (readByteText p a).all (Stmt.wellFormed p) = true := by
  have bit : ∀ i, (readBitText p i).all (Stmt.wellFormed p) = true := fun i => by
    simp only [readBitText, List.all_append, wellFormed_thenWait]
    rfl
  have ends : ∀ r, r.wellFormed p = true → (if a then thenWait p r else []).all (Stmt.wellFormed p) = true := by
    intro r hr
    split
    · rw [wellFormed_thenWait, hr]
    · rfl
  simp only [readByteText, ninthPulse, List.all_append, List.all_flatMap, bit, ends .datLow rfl, ends .datRelease rfl,
    wellFormed_thenWait]
  rfl

theorem wellFormed_initText (p : Params) : (initText p).all (Stmt.wellFormed p) = true := by
  simp only [initText, List.all_cons, wellFormed_bus, wellFormed_wait_tInit]
  rfl

theorem wellFormed_resetText (p : Params) : (resetText p).all (Stmt.wellFormed p) = true := by
  have pulse : (resetPulse p).all (Stmt.wellFormed p) = true := by
    simp only [resetPulse, List.all_append, wellFormed_thenWait]
    rfl
  have pulses : ((List.replicate p.resetToggles (resetPulse p)).flatten).all (Stmt.wellFormed p) = true := by
    rw [List.all_flatten, List.all_replicate, pulse]
    split <;> rfl
  simp only [resetText, List.all_append, pulses, wellFormed_tStartText, wellFormed_sendByteText]
  rfl

theorem wellFormed_startMeasText (p : Params) (k : Kind) : (startMeasText p k).all (Stmt.wellFormed p) = true := by
  simp only [startMeasText, List.all_append, wellFormed_tStartText, wellFormed_sendByteText, Bool.and_self]

theorem wellFormed_pollText (p : Params) : (pollText p).all (Stmt.wellFormed p) = true := by
  simp only [pollText, List.all_cons, wellFormed_bus, wellFormed_wait_tPoll]
  rfl

theorem wellFormed_readMeasText (p : Params) : (readMeasText p).all (Stmt.wellFormed p) = true := by
  simp only [readMeasText, List.all_append, wellFormed_readByteText]
  rfl

theorem wellFormed_getValueText (p : Params) (k : Kind) : (getValueText p k).all (Stmt.wellFormed p) = true := by
  simp only [getValueText, List.all_append, wellFormed_startMeasText, wellFormed_pollText, wellFormed_readMeasText,
    Bool.and_self]

/-- Every request of every operation text is one the engine may issue. -/
theorem wellFormed_textOf (p : Params) (i : Instr) : (textOf p i).all (Stmt.wellFormed p) = true := by
  cases i with
  | init => exact wellFormed_initText p
  | reset => exact wellFormed_resetText p
  | getValue k => exact wellFormed_getValueText p k
  | getValues =>
    simp only [textOf, getValuesText, List.all_append, wellFormed_getValueText]
    rfl
  | tstart => exact wellFormed_tStartText p
  | sendByte b => exact wellFormed_sendByteText p b
  | readByte a => exact wellFormed_readByteText p a
  | startMeas k => exact wellFormed_startMeasText p k
  | poll => exact wellFormed_pollText p
  | readMeas => exact wellFormed_readMeasText p
  | crcMutate | mirror | clkLow | clkHigh | datLow | datHigh | datRelease | sample | wait => rfl

/-- The request at the running command's position is one the engine may issue. -/
theorem seqRequest_wellFormed {s : State} {r : Request} (h : seqRequest s = some r) : r.wellFormed s.params = true := by
  obtain ⟨st, hst, hr⟩ := Option.bind_eq_some_iff.mp h
  obtain ⟨q, -, hq⟩ := Option.bind_eq_some_iff.mp hst
  have hmem : st ∈ textOf s.params q.cmd := List.mem_of_mem_drop (List.mem_of_head? hq)
  simpa [Stmt.wellFormed, hr] using List.all_eq_true.mp (wellFormed_textOf s.params q.cmd) st hmem

/-- The outstanding request of a coherent state is one the engine may issue (R82, R100). -/
theorem Coherent.request_wellFormed {s : State} {w : ReqWord} (h : Coherent s) (hw : s.request = some w) :
    ∃ r : Request, r.word = w ∧ r.wellFormed s.params = true := by
  cases hq : s.seq with
  | none => simp [((coherent_idle_iff hq).mp h).2.1] at hw
  | some q =>
    have hat := ((coherent_running_iff hq).mp h).2
    have hreq : some w = (seqRequest s).map Request.word := by simpa [atStart, atRequest, hw] using hat
    obtain ⟨r, hr, hword⟩ := Option.map_eq_some_iff.mp hreq.symm
    exact ⟨r, hword, seqRequest_wellFormed hr⟩

/-! ### Legal events (R82, R83) -/

theorem legalEvent_word (p : Params) (r : Request) (x : Option Word) :
    legalEvent p { request := r.word, response := x } = (r.wellFormed p && x.all (legalResponse r)) := by
  simp [legalEvent]

/-- Bits 7 to 2 of a response word are zero (R83). -/
theorem responseWord_reserved : ∀ (b : Byte) (f l : Bool), (responseWord b f l).extractLsb' 2 6 = 0 := by
  decide

/-- A response word is one the environment may give, whatever the draw (R83). -/
theorem legalResponse_respond (r : Request) (d : Draw) : legalResponse r (respond r d) = true := by
  have hzero : (respond r d).extractLsb' 2 6 = 0 := responseWord_reserved _ _ _
  cases hf : d.fail <;> cases hl : d.level <;> cases r <;>
    simp [legalResponse, hzero, hf, hl, carriesLevel, mayFail]

/-- The bus is legal where the answered requests are, and the outstanding one with its pending response. -/
theorem legalBus_iff (s : State) : LegalBus s ↔ s.trace.all (legalEvent s.params) = true ∧
    ∀ w, s.request = some w → legalEvent s.params { request := w, response := pendingReply s } = true := by
  cases hw : s.request with
  | none => simp [LegalBus, busTrace_none s hw]
  | some w => simp [LegalBus, busTrace_some s w hw]

/-- The issued requests: those of the trace, then the outstanding one (R102). -/
theorem issued_eq (s : State) : issued s = (s.trace.map BusEvent.request).reverse ++ s.request.toList := by
  cases hw : s.request with
  | none => simp [issued, busTrace_none s hw]
  | some w => simp [issued, busTrace_some s w hw]

/-! ### What a command's run leaves of the bus -/

/-- A stretch of statements answers no request. -/
@[simp] theorem advance_trace (l : List Stmt) (q : Seq) (s : State) : (advance l q s).trace = s.trace := by
  obtain ⟨q', c, p, -, -, h | ⟨e, h⟩ | ⟨r, h⟩⟩ := advance_cases l q s <;> simp [h]

/-- A stretch of statements leaves no pending response where there was none (R231). -/
theorem pendingReply_advance (l : List Stmt) {q : Seq} (s : State) (hr : q.reply = none) :
    pendingReply (advance l q s) = none := by
  obtain ⟨e, q', c, p, h⟩ := advance_stretch l q s
  have hs : advance l q s = e.reached q' { s with crc := c, pollcnt := p } := h.advance_eq s.inputs
  rw [hs]
  cases e with
  | completed => rfl
  | raised e => rfl
  | waiting r => exact h.reply.trans hr

/-- A response acted on: the trace gains its request, and no response is pending (R102). -/
theorem resume_takeResponse_bus (r : Request) (p : Word) {s : State} (h : pendingReply s = none) {q : Seq}
    (hq : s.seq = some q) :
    (resume (takeResponse r p s)).trace = { request := r.word, response := some p } :: s.trace ∧
      pendingReply (resume (takeResponse r p s)) = none := by
  have hreply : q.reply = none := (pendingReply_some s q hq).symm.trans h
  obtain ⟨e, hgo⟩ | ⟨l, hgo⟩ := resume_takeResponse r p hq
  · rw [hgo]
    exact ⟨by simp, rfl⟩
  · rw [hgo]
    exact ⟨by simp [advanceFrom], pendingReply_advance _ _ hreply⟩

/-- From `s` to `t` the engine has gone on with a legal bus, no response is pending, and every request issued by `s` is
issued still. -/
structure GoneOn (s t : State) : Prop where
  coherent : Coherent t
  params : t.params = s.params
  trace : t.trace.all (legalEvent s.params) = true
  issued : issued s <+: issued t
  noReply : pendingReply t = none

section
variable {s t : State}

/-- With no response pending, the outstanding request is legal as it is. -/
theorem GoneOn.legalBus (h : GoneOn s t) : LegalBus t := by
  refine (legalBus_iff t).mpr ⟨by rw [h.params]; exact h.trace, fun w hw => ?_⟩
  obtain ⟨r, rfl, hr⟩ := h.coherent.request_wellFormed hw
  rw [legalEvent_word, hr, h.noReply]
  rfl

/-- The engine has not moved. -/
theorem GoneOn.refl (hc : Coherent s) (hl : LegalBus s) (hr : pendingReply s = none) : GoneOn s s :=
  ⟨hc, rfl, ((legalBus_iff s).mp hl).1, List.prefix_rfl, hr⟩

theorem GoneOn.setInputs (h : GoneOn s t) (ins : List Input) : GoneOn s { t with inputs := ins } :=
  ⟨h.coherent, h.params, h.trace, h.issued, h.noReply⟩

/-- A command begins its text with nothing outstanding (R205). -/
theorem GoneOn.advanceFrom (h : GoneOn s t) {q : Seq} (hq : t.seq = some q) (hw : t.request = none) :
    GoneOn s (advanceFrom q t) where
  coherent := coherent_advance _ _ _ rfl ((coherent_running_iff hq).mp h.coherent).1
  params := (advance_params _ _ _).trans h.params
  trace := by rw [Machine.advanceFrom, advance_trace]; exact h.trace
  issued := by
    refine h.issued.trans ?_
    rw [issued_eq, issued_eq, hw, Option.toList_none, List.append_nil, Machine.advanceFrom, advance_trace]
    exact List.prefix_append _ _
  noReply := pendingReply_advance _ _ ((pendingReply_some t q hq).symm.trans h.noReply)

/-- The outstanding request is answered, and the command goes on to the next (R27, R101). -/
theorem GoneOn.resume_takeResponse (h : GoneOn s t) {w : ReqWord} {r : Request} {p : Word} (hw : t.request = some w)
    (hd : decodeRequest w = .ok r) (hp : legalResponse r p = true) : GoneOn s (resume (takeResponse r p t)) := by
  obtain ⟨q, -, hq, -⟩ := h.coherent.outstanding hw hd
  obtain ⟨htrace, hreply⟩ := resume_takeResponse_bus r p h.noReply hq
  obtain rfl := word_of_decodeRequest hd
  refine ⟨coherent_resume_takeResponse p h.coherent hw hd, by simpa using h.params, ?_, h.issued.trans ?_, hreply⟩
  · have hr : r.wellFormed s.params = true := by
      obtain ⟨r', hword, hr⟩ := h.coherent.request_wellFormed hw
      rw [← hword, decodeRequest_word] at hd
      cases hd
      rwa [← h.params]
    rw [htrace, List.all_cons, legalEvent_word, hr, Option.all_some, hp, h.trace]
    rfl
  · rw [issued_eq, issued_eq, htrace, hw]
    simp

/-- The answers that follow are taken one by one (R62). -/
theorem GoneOn.runOn (h : GoneOn s t) : GoneOn s (runOn t) :=
  drain_keeps (GoneOn s) (fun _ ins h => h.setInputs ins)
    (fun _ _ r d h hw hd => h.resume_takeResponse hw hd (legalResponse_respond r d)) t.inputs t h

end

/-- A command is admitted only where nothing is outstanding (R80, R100). -/
theorem Coherent.request_none {i : Instr} {s : State} (h : Coherent s) (ha : admits i s.proto = true) :
    s.request = none := by
  cases hq : s.seq with
  | none => exact ((coherent_idle_iff hq).mp h).2.1
  | some q => exact absurd ((coherent_running_iff hq).mp h).1.transmitting (ne_transmitting_of_admits ha)

/-- A command's start issues nothing (R205). -/
theorem goneOn_beginCommand {i : Instr} {s : State} (hc : Coherent s) (hl : LegalBus s) (ha : admits i s.proto = true) :
    GoneOn s (beginCommand i s) where
  coherent := coherent_beginCommand hc ha
  params := rfl
  trace := ((legalBus_iff s).mp hl).1
  issued := by
    rw [issued_eq, issued_eq, hc.request_none ha]
    exact List.prefix_rfl
  noReply := rfl

/-- An answer that holds the engine is a legal response, and issues nothing (R83, R231). -/
theorem legalBus_setReply {s : State} {r : Request} {q : Seq} (d : Draw) (hl : LegalBus s) (haw : awaited s = .ok r) :
    LegalBus { s with seq := some { q with reply := some (respond r d) } } := by
  obtain ⟨w, hw, hd, -⟩ := awaited_ok _ _ haw
  obtain ⟨htrace, hout⟩ := (legalBus_iff s).mp hl
  refine (legalBus_iff _).mpr ⟨htrace, fun w' hw' => ?_⟩
  obtain rfl : w' = w := Option.some.inj (hw'.symm.trans hw)
  obtain rfl := word_of_decodeRequest hd
  have hwell := hout _ hw
  rw [legalEvent_word, Bool.and_eq_true] at hwell
  rw [legalEvent_word, hwell.1]
  exact legalResponse_respond r d

/-- The engine, held, goes on: its pending response is a legal one (R27, R83). -/
theorem legalBus_proceed {s : State} (hc : Coherent s) (hl : LegalBus s) :
    LegalBus (proceed s) ∧ issued s <+: issued (proceed s) := by
  obtain ⟨htrace, hout⟩ := (legalBus_iff s).mp hl
  obtain ⟨q, hq, hw, hgo⟩ | ⟨q, w, p, r, hq, hw, hp, hd, hgo⟩ | hgo := proceed_cases s
  · have hreply : pendingReply s = none := by
      have hat := ((coherent_running_iff hq).mp hc).2
      have hstart : q.pos = 0 ∧ q.reply = none := by simpa [atRequest, atStart, hw] using hat
      exact (pendingReply_some s q hq).trans hstart.2
    have h := ((GoneOn.refl hc hl hreply).advanceFrom hq hw).runOn
    rw [hgo]
    exact ⟨h.legalBus, h.issued⟩
  · have hlegal : legalResponse r p = true := by
      have hevent := hout w hw
      obtain rfl := word_of_decodeRequest hd
      rw [legalEvent_word, pendingReply_some s q hq, hp, Bool.and_eq_true] at hevent
      exact hevent.2
    have hback : GoneOn s { s with seq := some { q with reply := none } } :=
      ⟨coherent_setReply none hc hq hw, rfl, htrace, by rw [issued_eq, issued_eq], rfl⟩
    have h := (hback.resume_takeResponse hw hd hlegal).runOn
    rw [hgo]
    exact ⟨h.legalBus, h.issued⟩
  · rw [hgo]
    exact ⟨hl, List.prefix_rfl⟩

/-- Settles O56, by the event the step took: a command goes on with a legal bus from its start, from an answer and from
where it was held; the other events issue nothing and take nothing out. -/
theorem everyStepKeepsTheBusLegal : Obligations.EveryStepKeepsTheBusLegal := by
  intro s t hc hl hstep
  cases step_taken hstep with
  | idle => exact ⟨hl, List.prefix_rfl⟩
  | @command _ i ins _ _ hadm =>
    have h := ((goneOn_beginCommand (s := { s with inputs := ins }) hc hl hadm).advanceFrom rfl rfl).runOn
    exact ⟨h.legalBus, h.issued⟩
  | @commandHeld _ i ins _ _ hadm =>
    have h := goneOn_beginCommand (s := { s with inputs := ins }) hc hl hadm
    exact ⟨h.legalBus, h.issued⟩
  | read => exact ⟨hl, List.prefix_rfl⟩
  | por => exact ⟨hl, List.prefix_rfl⟩
  | @answer r d ins _ haw =>
    obtain ⟨w, hw, hd, hreply⟩ := awaited_ok _ _ haw
    have h := (((GoneOn.refl hc hl hreply).setInputs ins).resume_takeResponse hw hd (legalResponse_respond r d)).runOn
    exact ⟨h.legalBus, h.issued⟩
  | @answerHeld r d q ins _ haw _ =>
    refine ⟨legalBus_setReply (s := { s with inputs := ins }) d hl haw, ?_⟩
    rw [issued_eq, issued_eq]
  | @proceed ins _ => exact legalBus_proceed (s := { s with inputs := ins }) hc hl

end Sys2Proof.Machine
end

section
/-! SUPPORT. The bus primitives (40_bus_primitives.md R100 to R111): what the row of a request does, answered or not, and
where an answer has no request to go to. -/

namespace Sys2Proof.Machine

open Sys2Proof

/-! ### The line records -/

/-- Only the clock requests write CLK when they succeed (R107 to R111). -/
theorem lineDone_clk {r : Request} (hlow : r ≠ .clkLow) (hhigh : r ≠ .clkHigh) (l : Bool) (s : State) :
    (lineDone r l s).clk = s.clk := by
  cases r with
  | clkLow => exact absurd rfl hlow
  | clkHigh => exact absurd rfl hhigh
  | _ => rfl

/-- Only the data line requests write DAT when they succeed (R105, R106, R110, R111). -/
theorem lineDone_dat {r : Request} (hlow : r ≠ .datLow) (hhigh : r ≠ .datHigh) (hrel : r ≠ .datRelease) (l : Bool)
    (s : State) : (lineDone r l s).dat = s.dat := by
  cases r with
  | datLow => exact absurd rfl hlow
  | datHigh => exact absurd rfl hhigh
  | datRelease => exact absurd rfl hrel
  | _ => rfl

/-- A failed request makes the record of its own line UNKNOWN, and no other (R104). -/
theorem lineFailed_eq (r : Request) (s : State) : lineFailed r s = { s with
    clk := if r = .clkLow ∨ r = .clkHigh then .unknown else s.clk
    dat := if r = .datLow ∨ r = .datHigh ∨ r = .datRelease then .unknown else s.dat } := by
  cases r <;> rfl

/-- A line record does not decide whether the command is inside TStart (R145). -/
@[simp] theorem inHandshake_lineFailed (r : Request) (s : State) : inHandshake (lineFailed r s) = inHandshake s := by
  cases r <;> rfl

@[simp] theorem inHandshake_recordEvent (r : Request) (p : Word) (s : State) :
    inHandshake (recordEvent r p s) = inHandshake s := rfl

/-- Every request but a WAIT may fail (R111). -/
theorem mayFail_of_ne_wait {r : Request} (h : ∀ dur, r ≠ .wait dur) : mayFail r = true := by
  cases r with
  | wait dur => exact absurd rfl (h dur)
  | _ => rfl

/-! ### What a request's row does -/

/-- With no answer there, the request is issued and waits (R100, R113). -/
theorem busRequest_unanswered (r : Request) {s : State} (h : ∀ d ins, s.inputs ≠ .answer d :: ins) :
    busRequest r s = .next (present r s) := by
  unfold busRequest
  split
  · next d ins hin => exact absurd hin (h d ins)
  · rfl

/-- What the row of a request can do: the request waits, or it is answered (R101). -/
theorem exec_request_cases {r : Request} {s t : State} (h : exec r.toInstr s = .next t) :
    t = present r s ∨ ∃ d ins, t = answerRequest r d { s with inputs := ins } := by
  rw [exec_request] at h
  by_cases hin : ∃ d ins, s.inputs = .answer d :: ins
  · obtain ⟨d, ins, hin⟩ := hin
    rw [busRequest_answer r s d ins hin] at h
    cases h
    exact .inr ⟨d, ins, rfl⟩
  · rw [busRequest_unanswered r fun d ins h => hin ⟨d, ins, h⟩] at h
    cases h
    exact .inl rfl

section
variable {s : State} {d : Draw} {ins : List Input}

/-- The row of a request whose answer is a success. -/
theorem exec_request_ok (r : Request) (hin : s.inputs = .answer d :: ins) (h : (d.fail && mayFail r) = false) :
    exec r.toInstr s =
      .next (lineDone r (d.level && carriesLevel r) (recordEvent r (respond r d) { s with inputs := ins })) := by
  rw [exec_request, busRequest_answer r s d ins hin, answerRequest_ok r d _ h]

/-- The row of a request whose answer is a failure (R104). -/
theorem exec_request_fail (r : Request) (hin : s.inputs = .answer d :: ins) (hf : d.fail = true) (hr : mayFail r = true) :
    exec r.toInstr s = .next (raise (.pinOperation r.kind d.detail)
      (lineFailed r (recordEvent r (respond r d) { s with inputs := ins }))) := by
  rw [exec_request, busRequest_answer r s d ins hin, answerRequest_fail r d _ hf hr]

/-- The response to a success that carries no level is 0x0000 (R83). -/
theorem respond_zero {r : Request} (h : (d.fail && mayFail r) = false) (hl : carriesLevel r = false) :
    respond r d = 0x0000 := by
  simp [respond, h, hl, responseWord]

/-- The row of a request other than SAMPLE whose answer is a success: the response in the trace is 0x0000. -/
theorem exec_request_zero (r : Request) (hin : s.inputs = .answer d :: ins) (h : (d.fail && mayFail r) = false)
    (hl : carriesLevel r = false) :
    exec r.toInstr s = .next (lineDone r false (recordEvent r 0x0000 { s with inputs := ins })) := by
  rw [exec_request_ok r hin h, respond_zero h hl, hl, Bool.and_false]

/-- The response to a SAMPLE that succeeds is the level in bit 0 (R83). -/
theorem respond_sample (hf : d.fail = false) : respond .sample d = if d.level then 0x0001 else 0x0000 := by
  cases hl : d.level <;> simp [respond, hf, hl, carriesLevel, responseWord]

end

/-! ### The row of each request -/

/-- Settles O13: the rows of the two clock requests, answered with success and with failure. -/
theorem clockRequestsDriveTheClock : Obligations.ClockRequestsDriveTheClock := by
  intro s d ins hin
  refine ⟨fun hf => ?_, fun hf => ?_⟩
  · have ok : ∀ r, (d.fail && mayFail r) = false := fun r => by rw [hf, Bool.false_and]
    exact ⟨exec_request_zero .clkLow hin (ok _) rfl, exec_request_zero .clkHigh hin (ok _) rfl⟩
  · exact ⟨⟨_, exec_request_fail .clkLow hin hf rfl, rfl, rfl, rfl, rfl⟩,
      ⟨_, exec_request_fail .clkHigh hin hf rfl, rfl, rfl, rfl, rfl⟩⟩

/-- Settles O14: the rows of the three data line requests, answered with success and with failure. -/
theorem dataRequestsDriveTheDataLine : Obligations.DataRequestsDriveTheDataLine := by
  intro s d ins hin
  refine ⟨fun hf => ?_, fun hf => ?_⟩
  · have ok : ∀ r, (d.fail && mayFail r) = false := fun r => by rw [hf, Bool.false_and]
    exact ⟨exec_request_zero .datLow hin (ok _) rfl, exec_request_zero .datHigh hin (ok _) rfl,
      exec_request_zero .datRelease hin (ok _) rfl⟩
  · exact ⟨⟨_, exec_request_fail .datLow hin hf rfl, rfl, rfl, rfl, rfl⟩,
      ⟨_, exec_request_fail .datHigh hin hf rfl, rfl, rfl, rfl, rfl⟩,
      ⟨_, exec_request_fail .datRelease hin hf rfl, rfl, rfl, rfl, rfl⟩⟩

/-- Settles O15: the row of SAMPLE, answered with success and with failure. -/
theorem sampleReturnsTheDrawnLevel : Obligations.SampleReturnsTheDrawnLevel := by
  intro s d ins hin
  refine ⟨fun hf => ?_, fun hf => ⟨_, exec_request_fail .sample hin hf rfl, rfl, rfl, rfl, rfl⟩⟩
  have hlevel : (d.level && carriesLevel .sample) = d.level := Bool.and_true _
  have hok := exec_request_ok .sample hin (by rw [hf, Bool.false_and])
  rw [hlevel, respond_sample hf] at hok
  exact hok

/-- Settles O16: a WAIT's answer is a success whatever is drawn, with response 0x0000. -/
theorem waitNeverFails : Obligations.WaitNeverFails := by
  intro s dur d ins hin
  exact exec_request_zero (.wait dur) hin (Bool.and_false _) rfl

/-- Settles O48, by what the row did: the request waits, it succeeds, or it fails and the command ends. -/
theorem busRequestFrames : Obligations.BusRequestFrames := by
  intro r s t hexec
  obtain rfl | ⟨d, ins, rfl⟩ := exec_request_cases hexec
  · exact ⟨⟨rfl, rfl, rfl⟩, rfl, rfl, rfl, rfl, .inl rfl, .inl ⟨rfl, rfl, rfl⟩, fun _ _ => rfl, fun _ _ _ => rfl⟩
  · cases hf : responseFail (respond r d) with
    | false =>
      rw [answerRequest, takeResponse_ok _ hf]
      exact ⟨⟨lineDone_value r _ _, lineDone_tempRaw r _ _, lineDone_humRaw r _ _⟩, lineDone_pollcnt r _ _,
        lineDone_params r _ _, lineDone_reads r _ _, lineDone_draws r _ _, .inl (lineDone_crc r _ _),
        .inl ⟨lineDone_err r _ _, lineDone_faultInfo r _ _, lineDone_proto r _ _⟩,
        fun hl hh => lineDone_clk hl hh _ _, fun hl hh hrel => lineDone_dat hl hh hrel _ _⟩
    | true =>
      rw [answerRequest, takeResponse_fail _ hf]
      refine ⟨⟨lineFailed_value r _, lineFailed_tempRaw r _, lineFailed_humRaw r _⟩, lineFailed_pollcnt r _,
        lineFailed_params r _, lineFailed_reads r _, lineFailed_draws r _, ?_, .inr ⟨rfl, rfl⟩,
        fun hl hh => by simp [lineFailed_eq, hl, hh], fun hl hh hrel => by simp [lineFailed_eq, hl, hh, hrel]⟩
      rw [raise_crc, inHandshake_lineFailed, inHandshake_recordEvent]
      split
      · next hhand => exact .inr ⟨rfl, hhand, rfl⟩
      · exact .inl (lineFailed_crc r _)

/-! ### The step at a request -/

/-- With nothing outstanding, no answer is taken. -/
theorem runOn_idle {s : State} (h : s.request = none) : runOn s = s := drain_idle s.inputs s h

/-- An answer of failure ends the running command within the step (R104). -/
theorem step_answer_fail {s : State} {r : Request} {d : Draw} {ins : List Input} (hin : s.inputs = .answer d :: ins)
    (haw : awaited s = .ok r) (hf : d.fail = true) (hr : mayFail r = true) :
    step s = .next (raise (.pinOperation r.kind d.detail)
      (lineFailed r (recordEvent r (respond r d) { s with inputs := ins }))) := by
  rw [step_answer hin haw, answerRequest_fail r d _ hf hr, resume_none _ rfl, runOn_idle rfl]

/-- STATE after a command fails (R208). -/
theorem failureState_some (i : Instr) : failureState (some i) = if i = .init then .uninitialized else .failed := by
  simp [failureState]

/-- Settles O17: the step ends in the failure, whose fields are those of R208. -/
theorem failedRequestEndsTheCommand : Obligations.FailedRequestEndsTheCommand := by
  intro s q r d ins hq hreply hw hwait hf hin
  have haw : awaited s = .ok r := awaited_word s r hw ((pendingReply_some s q hq).trans hreply)
  have hproto : failureState (s.seq.map Seq.cmd) = if q.cmd = .init then .uninitialized else .failed := by
    rw [hq]
    exact failureState_some q.cmd
  rw [step_answer_fail hin haw hf (mayFail_of_ne_wait hwait), lineFailed_eq, ← hproto]
  rfl

/-- Settles O9: an answer runs the outstanding request's row, and one that holds the engine is left pending. -/
theorem stepRunsTheOutstandingRequest : Obligations.StepRunsTheOutstandingRequest := by
  intro s r d ins hw hreply
  have haw : awaited s = .ok r := awaited_word s r hw hreply
  refine ⟨fun hin => ⟨answerRequest r d { s with inputs := ins }, ?_, step_answer hin haw⟩, fun q hq hin => ?_⟩
  · rw [exec_request, busRequest_answer r s d ins hin]
  · rw [step_answerHeld hin]
    exact holdAnswer_awaited (s := { s with inputs := ins }) haw hq d

/-- With nothing held, being told to go on does nothing (log entry 4). -/
theorem proceed_notHeld {s : State} (h : s.seq = none ∨ s.request.isSome = true ∧ pendingReply s = none) :
    proceed s = s := by
  obtain ⟨q, hq, hw, -⟩ | ⟨q, w, p, r, hq, -, hp, -⟩ | hgo := proceed_cases s
  · simp [hq, hw] at h
  · simp [hq, pendingReply_some s q hq, hp] at h
  · exact hgo

/-- Settles O18: a request with no answer waits, and the engine does not move with no event or nothing held. -/
theorem unansweredRequestWaits : Obligations.UnansweredRequestWaits := by
  refine ⟨fun s r h => ?_, fun s => step_idle, fun s ins hin h => ?_⟩
  · rw [exec_request, busRequest_unanswered r h]
    rfl
  · rw [step_proceed hin, proceed_notHeld (s := { s with inputs := ins }) h]

/-! ### Faults -/

/-- A command never faults (R215). -/
theorem exec_command_ne_fault {i : Instr} (hi : i.isCommand = true) (s : State) (f : Fault) : exec i s ≠ .fault f := by
  rw [exec_command i s hi, runCommand]
  split <;> exact nofun

/-- A host read never faults (R40). -/
theorem hostRead_ne_fault (idx : RegIndex) (s : State) (f : Fault) : hostRead idx s ≠ .fault f := by
  unfold hostRead
  split_ifs <;> exact nofun

/-- A command held at its start never faults (R80). -/
theorem holdCommand_ne_fault (i : Instr) (s : State) (f : Fault) : holdCommand i s ≠ .fault f := by
  unfold holdCommand
  split <;> exact nofun

/-- The inversion of `step` at a fault: only an answer faults. -/
theorem step_fault {s : State} {f : Fault} (h : step s = .fault f) :
    (∃ d ins, s.inputs = .answer d :: ins ∧ awaited s = .error f) ∨
      ∃ d ins, s.inputs = .answerHeld d :: ins ∧ holdAnswer d { s with inputs := ins } = .fault f := by
  cases hin : s.inputs with
  | nil => rw [step_idle hin] at h; cases h
  | cons x ins =>
    cases x with
    | hostWrite idx w =>
      by_cases hi : idx = 0
      · subst hi
        cases hd : decodeCommand w with
        | ok i =>
          rw [step_hostWrite hin hd] at h
          exact absurd h (exec_command_ne_fault (decodeCommand_isCommand hd) _ f)
        | error e => rw [step_hostWrite_reserved hin hd] at h; cases h
      · rw [step_hostWrite_readOnly hin hi] at h; cases h
    | hostWriteHeld w =>
      cases hd : decodeCommand w with
      | ok i => rw [step_hostWriteHeld hin hd] at h; exact absurd h (holdCommand_ne_fault i _ f)
      | error e => rw [step_hostWriteHeld_reserved hin hd] at h; cases h
    | hostRead idx => rw [step_hostRead hin] at h; exact absurd h (hostRead_ne_fault idx _ f)
    | por => rw [step_por hin] at h; cases h
    | answer d =>
      cases ha : awaited s with
      | ok r => rw [step_answer hin ha] at h; cases h
      | error f' =>
        rw [step_answer_fault hin ha] at h
        cases h
        exact .inl ⟨d, ins, rfl, rfl⟩
    | answerHeld d => exact .inr ⟨d, ins, rfl, (step_answerHeld hin).symm.trans h⟩
    | proceed => rw [step_proceed hin] at h; cases h

/-- In a coherent state an answer has no request to go to only where none waits for one: the outstanding request word is
never a reserved one (R82, R100). -/
theorem Coherent.awaited_error {s : State} {f : Fault} (h : Coherent s) (haw : awaited s = .error f) :
    f = .unsolicitedAnswer ∧ (s.request = none ∨ (pendingReply s).isSome = true) := by
  cases hw : s.request with
  | none =>
    simp only [awaited, hw] at haw
    cases haw
    exact ⟨rfl, .inl rfl⟩
  | some w =>
    cases hp : (pendingReply s).isSome with
    | true =>
      simp only [awaited, hw, hp, if_true] at haw
      cases haw
      exact ⟨rfl, .inr rfl⟩
    | false =>
      obtain ⟨r, rfl, -⟩ := h.request_wellFormed hw
      rw [awaited_word s r hw (by simpa using hp)] at haw
      cases haw

/-- In a coherent state an answer that holds the engine faults only where no request waits for it: a request is outstanding
only while a command runs (R100). -/
theorem Coherent.holdAnswer_fault {s : State} {d : Draw} {f : Fault} (h : Coherent s) (hf : holdAnswer d s = .fault f) :
    awaited s = .error f := by
  cases haw : awaited s with
  | error f' =>
    simp only [holdAnswer, haw] at hf
    cases hf
    rfl
  | ok r =>
    obtain ⟨w, hw, hd, -⟩ := awaited_ok s r haw
    obtain ⟨q, -, hq, -⟩ := h.outstanding hw hd
    rw [holdAnswer_awaited haw hq d] at hf
    cases hf

/-- Settles O59: only an answer faults, and in a coherent state only where no request waits for it. -/
theorem faultsOnlyOnUnsolicitedAnswers : Obligations.FaultsOnlyOnUnsolicitedAnswers := by
  intro s f hc hstep
  obtain ⟨d, ins, hin, haw⟩ | ⟨d, ins, hin, hf⟩ := step_fault hstep
  · obtain ⟨hkind, hnone⟩ := hc.awaited_error haw
    exact ⟨hkind, hnone, d, ins, .inl hin⟩
  · have haw : awaited s = .error f := Coherent.holdAnswer_fault (s := { s with inputs := ins }) hc hf
    obtain ⟨hkind, hnone⟩ := hc.awaited_error haw
    exact ⟨hkind, hnone, d, ins, .inr hin⟩

end Sys2Proof.Machine
end

section
/-! SUPPORT. The CRC engine (41_crc.md R122 to R128): `mutate` as a shift register of one byte, the bits of `mirror`,
and the two commands that issue no bus request. -/

namespace Sys2Proof.Machine

open Sys2Proof

/-! ### `mutate` as a shift register of one byte -/

/-- `repeat n times` is the library's iterate. -/
theorem repeatTimes_eq_iterate {α : Type} (f : α → α) (n : Nat) : repeatTimes f n = f^[n] := by
  induction n with
  | zero => rfl
  | succ n ih => exact funext fun a => congrFun ih (f a)

/-- The test of `mutate` is of bit 7 (R124). -/
theorem and_0x80_ne_zero_iff (w : Word) : w &&& 0x80 ≠ 0 ↔ w.getLsbD 7 = true := by
  rw [show (0x80 : Word) = BitVec.twoPow 16 7 from rfl, BitVec.and_twoPow]
  cases w.getLsbD 7 <;> decide

/-- The CRC-8 shift register: the byte moves left, and the bit that leaves it feeds `poly` back. -/
def shiftCrc (poly c : Byte) : Byte := (c <<< 1) ^^^ (if c.getLsbD 7 then poly else 0)

/-- The register content that a pair `(a, d)` of `mutate` stands for: the low byte of `a XOR d`, whose top bit is
the one tested (R124). -/
def crcOf (ad : Word × Word) : Byte := ad.1.truncate 8 ^^^ ad.2.truncate 8

/-- What is left of the data byte in a pair `(a, d)` of `mutate`. -/
def dataOf (ad : Word × Word) : Byte := ad.2.truncate 8

/-- In its low bytes the iteration `f` shifts the register once and the data byte once. -/
structure ShiftsRegister (poly : Byte) (f : Word × Word → Word × Word) : Prop where
  crc : Function.Semiconj crcOf f (shiftCrc poly)
  data : Function.Semiconj dataOf f (· <<< 1)

/-- An iteration of `mutate` (R123) shifts the register and the data byte. -/
theorem shiftsRegister_mutateStep (poly : Byte) : ShiftsRegister poly (mutateStep poly) where
  crc ad := by
    have htested : (ad.1 ^^^ ad.2).getLsbD 7 = (crcOf ad).getLsbD 7 := by simp [crcOf]
    have hshift : ((ad.1 <<< 1).truncate 8 ^^^ (ad.2 <<< 1).truncate 8 : Byte) = crcOf ad <<< 1 := by
      simp [crcOf, BitVec.shiftLeft_xor_distrib]
    simp only [mutateStep, and_0x80_ne_zero_iff, htested, shiftCrc, ← hshift]
    split_ifs
    · simp [crcOf, BitVec.xor_assoc, BitVec.xor_comm poly]
    · simp [crcOf]
  data ad := by
    simp only [mutateStep]
    split_ifs <;> simp [dataOf]

/-- Masking to the low byte is invisible in the low byte (R124). -/
theorem ShiftsRegister.masked {poly : Byte} {f : Word × Word → Word × Word} (h : ShiftsRegister poly f) :
    ShiftsRegister poly fun ad => ((f ad).1 &&& 0x00FF, (f ad).2 &&& 0x00FF) := by
  have hlow : ∀ w : Word, (w &&& 0x00FF).truncate 8 = (w.truncate 8 : Byte) := by
    intro w
    exact BitVec.setWidth_and.trans BitVec.and_allOnes
  refine ⟨fun ad => ?_, fun ad => ?_⟩
  · rw [← h.crc ad]
    simp only [crcOf, hlow]
  · exact (hlow _).trans (h.data ad)

/-- Eight iterations shift the data byte out, so that the low byte of `a` is the register itself. -/
theorem ShiftsRegister.iterate_eight {poly : Byte} {f : Word × Word → Word × Word} (h : ShiftsRegister poly f)
    (ad : Word × Word) : ((f^[8] ad).1.truncate 8 : Byte) = (shiftCrc poly)^[8] (crcOf ad) := by
  have hdata : dataOf (f^[8] ad) = 0#8 := by
    rw [h.data.iterate_right 8 ad]
    simp [← BitVec.shiftLeft_add]
  calc ((f^[8] ad).1.truncate 8 : Byte) = crcOf (f^[8] ad) := by
        rw [crcOf, ← dataOf, hdata, BitVec.xor_zero]
    _ = (shiftCrc poly)^[8] (crcOf ad) := h.crc.iterate_right 8 ad

/-- Repeated eight times from where `mutate` starts, such an iteration leaves the register started from `acc XOR b`. -/
theorem ShiftsRegister.repeatTimes_eight {poly : Byte} {f : Word × Word → Word × Word} (h : ShiftsRegister poly f)
    (acc : Accum) (b : Byte) :
    ((repeatTimes f 8 (acc.zeroExtend 16, b.zeroExtend 16)).1.truncate 8 : Accum) =
      (shiftCrc poly)^[8] (acc ^^^ b) := by
  have hstart : crcOf (acc.zeroExtend 16, b.zeroExtend 16) = acc ^^^ b := by simp [crcOf]
  rw [repeatTimes_eq_iterate, h.iterate_eight, hstart]

/-- `mutate` (R123) is eight shifts of the register. -/
theorem mutate_eq_iterate (poly : Byte) (acc : Accum) (b : Byte) :
    mutate poly acc b = (shiftCrc poly)^[8] (acc ^^^ b) :=
  (shiftsRegister_mutateStep poly).repeatTimes_eight acc b

/-- Settles O41: masked or not, an iteration shifts the same register. -/
theorem maskingEveryIterationAgrees : Obligations.MaskingEveryIterationAgrees := fun poly acc b =>
  ((shiftsRegister_mutateStep poly).masked.repeatTimes_eight acc b).trans (mutate_eq_iterate poly acc b).symm

/-! ### Linearity (R128) -/

/-- The shift register is linear over XOR: `poly` comes back once, twice (and cancels) or not at all. -/
theorem shiftCrc_xor (poly : Byte) : Function.Semiconj₂ (shiftCrc poly) (· ^^^ ·) (· ^^^ ·) := by
  intro c1 c2
  have hfeed : ∀ x y : Bool, (if x ^^ y then poly else 0) = (if x then poly else 0) ^^^ (if y then poly else 0) := by
    intro x y
    cases x <;> cases y <;> simp
  simp only [shiftCrc, BitVec.getLsbD_xor, BitVec.shiftLeft_xor_distrib, hfeed]
  ac_rfl

/-- A feedback constant with bit 0 set makes the shift injective: bit 0 of the result is the bit that left. -/
theorem shiftCrc_injective {poly : Byte} (h : poly.getLsbD 0 = true) : Function.Injective (shiftCrc poly) := by
  intro c1 c2 heq
  have hout : ∀ c, (shiftCrc poly c).getLsbD 0 = c.getLsbD 7 := by
    intro c
    cases h7 : c.getLsbD 7 <;> rw [shiftCrc, h7] <;> simp [h]
  have htop : c1.getLsbD 7 = c2.getLsbD 7 := by rw [← hout, heq, hout]
  have hrest : c1 <<< 1 = c2 <<< 1 := by
    simpa only [shiftCrc, htop, BitVec.xor_left_inj] using heq
  refine BitVec.eq_of_getLsbD_eq fun i hi => ?_
  obtain rfl | hlt : i = 7 ∨ i < 7 := by omega
  · exact htop
  · have hmoved : ∀ c : Byte, (c <<< 1).getLsbD (i + 1) = c.getLsbD i := by
      intro c
      simp [hi, show i + 1 < 8 by omega]
    rw [← hmoved, hrest, hmoved]

/-- Settles O39: `mutate` is a linear shift register run on `acc XOR b`, and POLY has bit 0 set. -/
theorem mutateIsLinear : Obligations.MutateIsLinear := by
  refine ⟨fun poly a1 a2 b1 b2 => ?_, fun poly a b => ?_, fun a b1 b2 h => ?_⟩
  · simp only [mutate_eq_iterate]
    rw [show a1 ^^^ a2 ^^^ (b1 ^^^ b2) = a1 ^^^ b1 ^^^ (a2 ^^^ b2) by ac_rfl]
    exact (shiftCrc_xor poly).iterate 8 _ _
  · simp [mutate_eq_iterate]
  · rw [mutate_eq_iterate, mutate_eq_iterate] at h
    exact (BitVec.xor_right_inj a).mp ((shiftCrc_injective (by decide)).iterate 8 h)

/-- Settles O40: each of the twenty values is computed. -/
theorem mutateTable : Obligations.MutateTable := by
  unfold Obligations.MutateTable
  decide

/-! ### `mirror` (R122) -/

/-- One write of `mirror` sets bit `7 - i` from bit `i` and keeps the others (R122). -/
theorem getLsbD_mirrorBit (b r : Byte) (i : Nat) {j : Nat} (hj : j < 8) :
    (mirrorBit b r i).getLsbD j = if j = 7 - i then b.getLsbD i else r.getLsbD j := by
  have hmask : ((1 <<< (7 - i) : Nat) : Byte) = BitVec.twoPow 8 (7 - i) :=
    BitVec.eq_of_toNat_eq (by simp [Nat.one_shiftLeft])
  simp only [mirrorBit, hmask]
  cases b.getLsbD i <;> by_cases hji : j = 7 - i <;> simp [hji, hj, show 7 - i < 8 by omega]

/-- The bits of a mirrored byte: bit `j` is written from bit `7 - j`, and by no other of the eight writes (R122). -/
theorem getLsbD_mirror (b : Byte) (j : Nat) : (mirror b).getLsbD j = (decide (j < 8) && b.getLsbD (7 - j)) := by
  by_cases hj : j < 8
  · simp only [mirror, List.foldl]
    interval_cases j <;> simp only [getLsbD_mirrorBit, Nat.reduceLT] <;> rfl
  · simp [hj, BitVec.getLsbD_of_ge, not_lt.mp hj]

/-- Reversing twice puts every bit back (R122). -/
theorem mirror_involutive : Function.Involutive mirror := by
  intro b
  refine BitVec.eq_of_getLsbD_eq fun i hi => ?_
  rw [getLsbD_mirror, getLsbD_mirror]
  simp [hi, show 7 - i < 8 by omega, show 7 - (7 - i) = i by omega]

/-- Settles O38: bit `7 - i` is written from bit `7 - (7 - i)`. -/
theorem mirrorReversesTheBits : Obligations.MirrorReversesTheBits :=
  ⟨fun b i hi => by
    rw [getLsbD_mirror]
    simp [show 7 - i < 8 by omega, show 7 - (7 - i) = i by omega], mirror_involutive⟩

/-- Settles O42: `mirror` is its own inverse. -/
theorem checksumConditionsAgree : Obligations.ChecksumConditionsAgree := fun _ _ =>
  mirror_involutive.eq_iff.symm

/-! ### CRC_MUTATE and MIRROR (R125, R126) -/

/-- The admission row of both CRC commands (R80). -/
theorem admitsCrc_iff (p : ProtoState) : admitsCrc p = true ↔ p ≠ .transmitting := by cases p <;> decide

/-- A command that starts without leaving a request outstanding has run (R62). -/
theorem exec_of_request_none {i : Instr} {s : State} (hi : i.isCommand = true) (hadm : admits i s.proto = true)
    (hreq : (startCommand i s).request = none) : exec i s = .next (startCommand i s) := by
  rw [exec_command i s hi, runCommand_admitted i s hadm, runOn_idle hreq]

/-- Settles O36: the text is one statement, `foldCrc`, and then the command completes where it started. -/
theorem crcMutateFoldsTheByte : Obligations.CrcMutateFoldsTheByte := fun s _ hp =>
  exec_of_request_none rfl ((admitsCrc_iff s.proto).mpr hp) rfl

/-- Settles O37: the text is empty, and completion writes the mirrored byte. -/
theorem mirrorWritesTheReversedByte : Obligations.MirrorWritesTheReversedByte := fun s b hp =>
  ⟨zext16 (mirror b), fun i hi => by simp [zext16, getLsbD_mirror, hi],
    exec_of_request_none rfl ((admitsCrc_iff s.proto).mpr hp) rfl⟩

end Sys2Proof.Machine
end

section
/-! SUPPORT. A stretch of an operation text run through its answers, whatever stands before and after it in the text, and
how the command it belongs to ends (10_state.md R27, 20_memory.md R62, 60_exceptions.md R206 to R208). -/

namespace Sys2Proof.Machine

open Sys2Proof

/-! ### The state after answered requests -/

/-- CLK after requests that succeeded, in order (R105, R106). -/
abbrev clkAfterAll (rs : List Request) (x : ClkLevel) : ClkLevel := rs.foldl (fun x r => clkAfter r x) x

/-- DAT after requests that succeeded, in order (R107 to R109). -/
abbrev datAfterAll (rs : List Request) (x : DatLevel) : DatLevel := rs.foldl (fun x r => datAfter r x) x

/-- The state after the requests `rs` succeeded with the draws `ds`, CRC and POLLCNT left at `c` and `b`. -/
def served (rs : List Request) (ds : List Draw) (c : Accum) (b : Byte) (s : State) : State :=
  { s with
    crc := c
    pollcnt := b
    clk := clkAfterAll rs s.clk
    dat := datAfterAll rs s.dat
    trace := (eventsOf rs ds).reverse ++ s.trace }

theorem eventsOf_append {r1 : List Request} {d1 : List Draw} (h : r1.length = d1.length) (r2 : List Request)
    (d2 : List Draw) : eventsOf (r1 ++ r2) (d1 ++ d2) = eventsOf r1 d1 ++ eventsOf r2 d2 :=
  List.zipWith_append h

/-- Requests served one list after the other. -/
theorem served_served {r1 : List Request} {d1 : List Draw} (h : r1.length = d1.length) (r2 : List Request)
    (d2 : List Draw) (c1 c2 : Accum) (b1 b2 : Byte) (s : State) :
    served r2 d2 c2 b2 (served r1 d1 c1 b1 s) = served (r1 ++ r2) (d1 ++ d2) c2 b2 s := by
  simp [served, eventsOf_append h, List.foldl_append]

/-! ### A stretch of text -/

/-- The sequencer `q` at statement `n`. -/
def seqAt (q : Seq) (n : Nat) : Seq := { q with pos := n }

/-- The stretch `l`, from the temporaries of `q` in the state `s`, issues the requests `rs`, which the draws `ds` answer,
and leads to the temporaries of `q'` with CRC `c` and POLLCNT `b`, at any place in a text and whatever follows it. Unlike
`play`, the relation holds of a stretch with the poll loop's end too. -/
structure RunsTo (l : List Stmt) (rs : List Request) (ds : List Draw) (q : Seq) (s : State) (q' : Seq) (c : Accum)
    (b : Byte) : Prop where
  length : rs.length = ds.length
  drain_eq : ∀ n l2 ins, seqRest s.params (seqAt q n) = l ++ l2 →
    ∃ m, seqRest s.params (seqAt q' m) = l2 ∧
      drain (answers ds ++ ins) (advance (l ++ l2) (seqAt q n) s) =
        drain ins (advance l2 (seqAt q' m) (served rs ds c b s))

section
variable {l l1 l2 : List Stmt} {rs r1 r2 : List Request} {ds d1 d2 : List Draw} {q q1 q2 : Seq} {s : State}
  {c c1 c2 : Accum} {b b1 b2 : Byte}

/-- Two stretches, one after the other. -/
theorem RunsTo.append (h1 : RunsTo l1 r1 d1 q s q1 c1 b1) (h2 : RunsTo l2 r2 d2 q1 (served r1 d1 c1 b1 s) q2 c2 b2) :
    RunsTo (l1 ++ l2) (r1 ++ r2) (d1 ++ d2) q s q2 c2 b2 where
  length := by simp [h1.length, h2.length]
  drain_eq := by
    intro n l3 ins hrest
    rw [List.append_assoc] at hrest
    obtain ⟨m1, hm1, hgo1⟩ := h1.drain_eq n (l2 ++ l3) (answers d2 ++ ins) hrest
    obtain ⟨m2, hm2, hgo2⟩ := h2.drain_eq m1 l3 ins hm1
    refine ⟨m2, hm2, ?_⟩
    calc drain (answers (d1 ++ d2) ++ ins) (advance (l1 ++ l2 ++ l3) (seqAt q n) s)
        = drain (answers d1 ++ (answers d2 ++ ins)) (advance (l1 ++ (l2 ++ l3)) (seqAt q n) s) := by
          simp [answers]
      _ = drain ins (advance l3 (seqAt q2 m2) (served r2 d2 c2 b2 (served r1 d1 c1 b1 s))) := hgo1.trans hgo2
      _ = drain ins (advance l3 (seqAt q2 m2) (served (r1 ++ r2) (d1 ++ d2) c2 b2 s)) := by
          rw [served_served h1.length]

/-- What is left of the text after the statement at the sequencer's position (R27). -/
theorem seqRest_seqAt_succ {p : Params} {q q' : Seq} (hc : q'.cmd = q.cmd) {n : Nat} {st : Stmt} {l : List Stmt}
    (h : seqRest p (seqAt q n) = st :: l) : seqRest p (seqAt q' (n + 1)) = l := by
  have hsucc : seqRest p (seqAt q' (n + 1)) = (seqRest p (seqAt q n)).tail := by
    rw [← seqRest_seqNext]
    exact seqRest_congr hc rfl
  rw [hsucc, h, List.tail_cons]

/-- A statement that issues no request and does not end the command. -/
theorem RunsTo.silent {st : Stmt} (hc : q1.cmd = q.cmd)
    (h : ∀ n l2, advance (st :: l2) (seqAt q n) s = advance l2 (seqAt q1 (n + 1)) { s with crc := c, pollcnt := b }) :
    RunsTo [st] [] [] q s q1 c b where
  length := rfl
  drain_eq := fun n l2 ins hrest => ⟨n + 1, seqRest_seqAt_succ hc hrest, congrArg (drain ins) (h n l2)⟩

/-- At a statement that issues a request, the command waits (R100). -/
theorem advance_request {st : Stmt} {r : Request} (hst : st.request? = some r) (l : List Stmt) (q : Seq) (s : State) :
    advance (st :: l) q s = awaitAnswer r q s := by
  cases st <;> cases hst <;> rfl

/-- A statement that issues a request which succeeds (R101). -/
theorem RunsTo.request {st : Stmt} {r : Request} {d : Draw} (hst : st.request? = some r)
    (hd : (d.fail && mayFail r) = false) : RunsTo [st] [r] [d] q s (levelAfter r d q) s.crc s.pollcnt where
  length := rfl
  drain_eq := by
    intro n l2 ins hrest
    have hc : (levelAfter r d q).cmd = q.cmd := by cases r <;> rfl
    have hnext : seqNext (levelAfter r d (seqAt q n)) = seqAt (levelAfter r d q) (n + 1) := by cases r <;> rfl
    refine ⟨n + 1, seqRest_seqAt_succ hc hrest, ?_⟩
    rw [List.singleton_append, advance_request hst, ← hnext]
    exact (drain_answer r d ins _ rfl).trans
      (congrArg (drain ins) (resume_answer_ok r d _ s l2 (by rw [hrest]; rfl) hd))

/-- The draws answer the requests, and no request fails (a WAIT never does, R111). -/
abbrev Answered (rs : List Request) (ds : List Draw) : Prop := List.Forall₂ (fun r d => (d.fail && mayFail r) = false) rs ds

theorem Answered.of_succeed {rs : List Request} {ds : List Draw} (hlen : rs.length = ds.length) (h : Succeed ds) :
    Answered rs ds :=
  List.forall₂_iff_zip.mpr ⟨hlen, fun hmem => by rw [h _ (List.of_mem_zip hmem).2, Bool.false_and]⟩

/-- Statements that issue one request each, no SAMPLE among them. -/
theorem RunsTo.requests (ha : Answered rs ds) (hl : l.map Stmt.request? = rs.map some)
    (hsample : rs.any carriesLevel = false) : RunsTo l rs ds q s q s.crc s.pollcnt := by
  induction ha generalizing l s with
  | nil =>
    obtain rfl := List.map_eq_nil_iff.mp hl
    exact ⟨rfl, fun n l2 ins hrest => ⟨n, hrest, rfl⟩⟩
  | @cons r d rs ds hd _ ih =>
    obtain ⟨st, l, rfl, hst, hl⟩ := List.map_eq_cons_iff.mp hl
    rw [List.any_cons, Bool.or_eq_false_iff] at hsample
    have hlevel : levelAfter r d q = q := by
      cases r with
      | sample => cases hsample.1
      | _ => rfl
    have hfirst : RunsTo [st] [r] [d] q s q s.crc s.pollcnt := by
      simpa only [hlevel] using RunsTo.request (q := q) (s := s) hst hd
    exact hfirst.append (ih hl hsample.2)

end

/-! ### How the command ends -/

theorem isCommand_of_admits {i : Instr} {p : ProtoState} (h : admits i p = true) : i.isCommand = true := by
  cases i with
  | clkLow | clkHigh | datLow | datHigh | datRelease | sample | wait => cases h
  | _ => rfl

section
variable {i : Instr} {s : State} {l l2 : List Stmt} {rs : List Request} {ds : List Draw} {q : Seq} {c : Accum} {b : Byte}
  {ins : List Input}

/-- A command that has run the first stretch of its text. -/
theorem RunsTo.exec_eq (h : RunsTo l rs ds (seqStart i s.proto) (beginCommand i s) q c b)
    (htext : textOf s.params i = l ++ l2) (hadm : admits i s.proto = true) (hin : s.inputs = answers ds ++ ins) :
    ∃ n, seqRest s.params (seqAt q n) = l2 ∧
      exec i s = .next (drain ins (advance l2 (seqAt q n) (served rs ds c b (beginCommand i s)))) := by
  obtain ⟨n, hn, hgo⟩ := h.drain_eq 0 l2 ins htext
  refine ⟨n, hn, ?_⟩
  rw [exec_command i s (isCommand_of_admits hadm), runCommand_admitted i s hadm, runOn_startCommand, hin, ← hgo, ← htext]
  rfl

/-- A command whose whole text has run completes (R207). -/
theorem RunsTo.exec_complete (h : RunsTo l rs ds (seqStart i s.proto) (beginCommand i s) q c b)
    (htext : textOf s.params i = l) (hadm : admits i s.proto = true) (hin : s.inputs = answers ds ++ ins) :
    exec i s = .next { complete q (served rs ds c b (beginCommand i s)) with inputs := ins } := by
  obtain ⟨n, -, hexec⟩ := h.exec_eq (htext.trans (List.append_nil l).symm) hadm hin
  rw [hexec]
  exact congrArg _ (drain_idle ins _ rfl)

theorem endedWith_complete (hc : q.cmd = i) (ho : q.origin = s.proto) :
    EndedWith s { complete q (served rs ds c b (beginCommand i s)) with inputs := ins } (successState i s.proto) 0 0x0000
      rs ds ins :=
  ⟨by rw [← hc, ← ho]; rfl, rfl, rfl, rfl, rfl, complete_trace _ _, rfl, complete_params _ _, complete_reads _ _,
    complete_draws _ _⟩

/-- Whether a failure of the request at the sequencer's position is inside TStart (R145). -/
theorem inHandshake_eq {t : State} {st : Stmt} {r : Request} (hq : t.seq = some q) (hst : seqStmt t.params q = some st)
    (hr : st.request? = some r) : inHandshake t = decide (st = .handshake r) := by
  cases st <;> cases hr <;> simp [inHandshake, hq, hst]

/-- A failure at a statement that issues no request is outside TStart's requests (R145). -/
theorem inHandshake_eq_false_of_silent {t : State} {st : Stmt} (hq : t.seq = some q)
    (hst : seqStmt t.params q = some st) (hr : st.request? = none) : inHandshake t = false := by
  cases st <;> cases hr <;> simp [inHandshake, hq, hst]

/-- The state in which the command `i` has failed with `e` (R208). -/
def failedWith (i : Instr) (e : Failure) (ins : List Input) (s : State) : State :=
  { s with
    err := e.code
    faultInfo := e.info
    proto := failureState (some i)
    seq := none
    request := none
    inputs := ins }

/-- A command ends at a statement that raises after the first stretch of its text (R206, R208). -/
theorem RunsTo.exec_raise (h : RunsTo l rs ds (seqStart i s.proto) (beginCommand i s) q c b) {st : Stmt} {e : Failure}
    (htext : textOf s.params i = l ++ st :: l2) (hst : st.request? = none)
    (hraise : ∀ n, advance (st :: l2) (seqAt q n) (served rs ds c b (beginCommand i s)) =
      raise e { served rs ds c b (beginCommand i s) with seq := some (seqAt q n) })
    (hc : q.cmd = i) (hadm : admits i s.proto = true) (hin : s.inputs = answers ds ++ ins) :
    exec i s = .next (failedWith i e ins (served rs ds c b s)) := by
  obtain ⟨n, hn, hexec⟩ := h.exec_eq htext hadm hin
  have hhand : inHandshake { served rs ds c b (beginCommand i s) with seq := some (seqAt q n) } = false :=
    inHandshake_eq_false_of_silent rfl (congrArg List.head? hn) hst
  rw [hexec, hraise n, drain_idle _ _ rfl, raise, hhand, ← hc]
  rfl

theorem endedWith_raise (e : Failure) :
    EndedWith s (failedWith i e ins (served rs ds c b s)) (failureState (some i)) e.code e.info rs ds ins :=
  ⟨rfl, rfl, rfl, rfl, rfl, rfl, rfl, rfl, rfl, rfl⟩

/-- A command ends at a request that fails after the first stretch of its text (R104, R206, R208). -/
theorem RunsTo.exec_fail (h : RunsTo l rs ds (seqStart i s.proto) (beginCommand i s) q c b) {st : Stmt} {r : Request}
    {d : Draw} (htext : textOf s.params i = l ++ st :: l2) (hst : st.request? = some r) (hf : d.fail = true)
    (hr : mayFail r = true) (hc : q.cmd = i) (hadm : admits i s.proto = true)
    (hin : s.inputs = answers (ds ++ [d]) ++ ins) :
    exec i s = .next (failedWith i (.pinOperation r.kind d.detail) ins
      (lineFailed r (served (rs ++ [r]) (ds ++ [d]) (if st = .handshake r then 0x00 else c) b s))) := by
  have hin' : s.inputs = answers ds ++ .answer d :: ins := by simp [hin, answers]
  obtain ⟨n, hn, hexec⟩ := h.exec_eq htext hadm hin'
  have hhand : inHandshake (awaitAnswer r (seqAt q n) (served rs ds c b (beginCommand i s))) =
      decide (st = .handshake r) :=
    inHandshake_eq rfl (congrArg List.head? hn) hst
  rw [hexec, advance_request hst, drain_answer r d _ _ rfl, answerRequest_fail r d _ hf hr, resume_none _ rfl,
    drain_idle _ _ rfl, raise, inHandshake_lineFailed, inHandshake_recordEvent, hhand, ← hc,
    ← served_served h.length [r] [d] c _ b b]
  simp only [decide_eq_true_eq]
  cases r <;> rfl

theorem endedWith_fail (e : Failure) (r : Request) :
    EndedWith s (failedWith i e ins (lineFailed r (served rs ds c b s))) (failureState (some i)) e.code e.info rs ds ins :=
  ⟨rfl, rfl, rfl, rfl, rfl, lineFailed_trace r _, rfl, lineFailed_params r _, lineFailed_reads r _,
    lineFailed_draws r _⟩

end

end Sys2Proof.Machine
end

section
/-! SUPPORT. The operations of 42_protocol.md, each as a stretch of text: TStart (R145), SendByte (R146) and ReadByte
(R149), wherever they stand. -/

namespace Sys2Proof.Machine

open Sys2Proof

/-! ### Draws, cut where the operations are -/

/-- A list of draws, cut after the first `m`. -/
theorem exists_append_of_length {ds : List Draw} (m n : Nat) (h : ds.length = m + n) :
    ∃ d1 d2, ds = d1 ++ d2 ∧ d1.length = m ∧ d2.length = n :=
  ⟨ds.take m, ds.drop m, (List.take_append_drop m ds).symm, by simp [h], by simp [h]⟩

theorem succeed_append {d1 d2 : List Draw} : Succeed (d1 ++ d2) ↔ Succeed d1 ∧ Succeed d2 := List.forall_mem_append

theorem levelAt_append_right {d1 : List Draw} {m : Nat} (h : d1.length = m) (d2 : List Draw) (n : Nat) :
    levelAt (d1 ++ d2) (m + n) = levelAt d2 n := by
  rw [levelAt, ← h, List.getElem?_append_right (Nat.le_add_right _ _), Nat.add_sub_cancel_left, levelAt]

/-! ### TStart and SendByte -/

/-- TStart: CRC cleared (R145). -/
theorem runsTo_tStartText (p : Params) {ds : List Draw} (h : TStartAnswers ds) (q : Seq) (s : State) :
    RunsTo (tStartText p) (tStartRequests p) ds q s q 0x00 s.pollcnt := by
  obtain ⟨hlen, hok⟩ := h
  have hreqs : RunsTo ((tStartRequests p).map .handshake) (tStartRequests p) ds q s q s.crc s.pollcnt :=
    .requests (.of_succeed hlen.symm hok) rfl rfl
  have hclear : ∀ t : State, RunsTo [.clearCrc] [] [] q t q 0x00 t.pollcnt := fun t => .silent rfl fun _ _ => rfl
  have hall := hreqs.append (hclear _)
  rwa [List.append_nil, List.append_nil] at hall

/-- No SAMPLE is among the requests that send the eight bits (R146). -/
theorem carriesLevel_sendRequests (p : Params) (v : Byte) :
    ((sendRequests p v).take 54).any carriesLevel = false := by
  have hbit : ∀ b, (sendBitRequests p b).any carriesLevel = false := fun b => by cases b <;> rfl
  have htake : (sendRequests p v).take 54 = bitsDown.flatMap (fun i => sendBitRequests p (v.getLsbD i)) ++
      [.clkLow, .wait p.tBit, .datRelease, .wait p.tBit, .clkHigh, .wait p.tBit] := rfl
  rw [htake, List.any_append, List.any_flatMap]
  simp only [hbit]
  rfl

/-- SendByte up to its acknowledgement sample (R146). -/
theorem runsTo_sendByte_sample (p : Params) (v : Byte) {ds : List Draw} {ack : Bool} (hlen : ds.length = 55)
    (hok : Succeed ds) (hack : levelAt ds 54 = some ack) (q : Seq) (s : State) :
    RunsTo ((sendByteText p v).take 55) ((sendRequests p v).take 55) ds q s { q with level := ack } s.crc s.pollcnt := by
  obtain ⟨d1, d2, rfl, h1, h2⟩ := exists_append_of_length 54 1 hlen
  obtain ⟨hok1, hok2⟩ := succeed_append.mp hok
  obtain ⟨d, rfl⟩ := List.length_eq_one_iff.mp h2
  obtain rfl : d.level = ack := Option.some.inj ((levelAt_append_right h1 [d] 0).symm.trans hack)
  have hbits : RunsTo ((sendByteText p v).take 54) ((sendRequests p v).take 54) d1 q s q s.crc s.pollcnt :=
    .requests (.of_succeed h1.symm hok1) rfl (carriesLevel_sendRequests p v)
  exact hbits.append (.request (r := .sample) rfl (by rw [hok2 d (List.mem_singleton_self d), Bool.false_and]))

/-- SendByte acknowledged: the byte folded into CRC (R146). -/
theorem runsTo_sendByteText (p : Params) (v : Byte) {ds : List Draw} (h : AckAnswers ds) (q : Seq) (s : State) :
    RunsTo (sendByteText p v) (sendRequests p v) ds q s { q with level := false } (mutate s.params.poly s.crc v)
      s.pollcnt := by
  obtain ⟨hlen, hok, hack⟩ := h
  obtain ⟨d1, d2, rfl, h1, h2⟩ := exists_append_of_length 55 2 hlen
  obtain ⟨hok1, hok2⟩ := succeed_append.mp hok
  have hack1 : levelAt d1 54 = some false := by
    rwa [levelAt, List.getElem?_append_left (by omega)] at hack
  have hcheck : ∀ t : State, RunsTo [.checkAck v] [] [] { q with level := false } t { q with level := false } t.crc
      t.pollcnt := fun t => .silent rfl fun _ _ => rfl
  have hfold : ∀ t : State, RunsTo [.foldCrc v] [] [] { q with level := false } t { q with level := false }
      (mutate t.params.poly t.crc v) t.pollcnt := fun t => .silent rfl fun _ _ => rfl
  have hlow : ∀ t : State, RunsTo (thenWait p .clkLow) [.clkLow, .wait p.tBit] d2 { q with level := false } t
      { q with level := false } t.crc t.pollcnt := fun t => .requests (.of_succeed h2.symm hok2) rfl rfl
  exact (runsTo_sendByte_sample p v h1 hok1 hack1 q s).append ((hcheck _).append ((hfold _).append (hlow _)))

/-! ### ReadByte -/

/-- The requests of one bit read by ReadByte (R149). -/
def readBitRequests (p : Params) : List Request := [.clkHigh, .wait p.tBit, .sample, .clkLow, .wait p.tBit]

/-- `r` with bit `i` of `v` ORed in (R149). -/
def orBitOf (v r : Byte) (i : Nat) : Byte := if v.getLsbD i then r ||| ((1 : Byte) <<< i) else r

/-- The temporaries after bit `i` of `v` was read (R149). -/
def readBit (v : Byte) (q : Seq) (i : Nat) : Seq := { q with byte := orBitOf v q.byte i, level := v.getLsbD i }

theorem runsTo_readBitText (p : Params) {v : Byte} {i : Nat} {ds : List Draw} (hlen : ds.length = 5) (hok : Succeed ds)
    (hlevel : levelAt ds 2 = some (v.getLsbD i)) (q : Seq) (s : State) :
    RunsTo (readBitText p i) (readBitRequests p) ds q s (readBit v q i) s.crc s.pollcnt := by
  obtain ⟨d1, d2, rfl, h1, h2⟩ := exists_append_of_length 2 3 hlen
  obtain ⟨hok1, hok2⟩ := succeed_append.mp hok
  obtain ⟨d, d3, rfl⟩ := List.exists_cons_of_length_eq_add_one h2
  obtain ⟨hd, hok3⟩ := List.forall_mem_cons.mp hok2
  have hsampled : d.level = v.getLsbD i := Option.some.inj ((levelAt_append_right h1 (d :: d3) 0).symm.trans hlevel)
  have hhigh : RunsTo (thenWait p .clkHigh) [.clkHigh, .wait p.tBit] d1 q s q s.crc s.pollcnt :=
    .requests (.of_succeed h1.symm hok1) rfl rfl
  have hsample : ∀ t : State, RunsTo [.bus .sample] [.sample] [d] q t { q with level := v.getLsbD i } t.crc t.pollcnt :=
    fun t => hsampled ▸ .request (r := .sample) rfl (by rw [hd, Bool.false_and])
  have hor : ∀ t : State, RunsTo [.orBit i] [] [] { q with level := v.getLsbD i } t (readBit v q i) t.crc t.pollcnt :=
    fun t => .silent rfl fun _ _ => rfl
  have hlow : ∀ t : State, RunsTo (thenWait p .clkLow) [.clkLow, .wait p.tBit] d3 (readBit v q i) t (readBit v q i) t.crc
      t.pollcnt := fun t => .requests (.of_succeed (Nat.succ.inj h2).symm hok3) rfl rfl
  exact hhigh.append ((hsample _).append ((hor _).append (hlow _)))

/-- The bits read one after the other, whichever they are. -/
theorem runsTo_readBits (p : Params) {v : Byte} (is : List Nat) : ∀ {ds : List Draw} (q : Seq) (s : State),
    ds.length = 5 * is.length → Succeed ds →
    (∀ j i, is[j]? = some i → levelAt ds (5 * j + 2) = some (v.getLsbD i)) →
    RunsTo (is.flatMap (readBitText p)) (List.replicate is.length (readBitRequests p)).flatten ds q s
      (is.foldl (readBit v) q) s.crc s.pollcnt := by
  induction is with
  | nil =>
    intro ds q s hlen _ _
    obtain rfl := List.length_eq_zero_iff.mp hlen
    exact .requests .nil rfl rfl
  | cons i is ih =>
    intro ds q s hlen hok hlevels
    obtain ⟨d1, d2, rfl, h1, h2⟩ := exists_append_of_length 5 (5 * is.length) (by rw [hlen, List.length_cons]; omega)
    obtain ⟨hok1, hok2⟩ := succeed_append.mp hok
    have hlevel : levelAt d1 2 = some (v.getLsbD i) := by
      have h := hlevels 0 i rfl
      rwa [levelAt, List.getElem?_append_left (by omega)] at h
    refine (runsTo_readBitText p h1 hok1 hlevel q s).append (ih _ _ h2 hok2 fun j k hk => ?_)
    have h := hlevels (j + 1) k hk
    rwa [show 5 * (j + 1) + 2 = 5 + (5 * j + 2) by omega, levelAt_append_right h1] at h

theorem getLsbD_orBitOf (v r : Byte) (i : Nat) {j : Nat} (hj : j < 8) :
    (orBitOf v r i).getLsbD j = (r.getLsbD j || (v.getLsbD j && decide (j = i))) := by
  have hone : ((1 : Byte) <<< i).getLsbD j = decide (j = i) := by
    show (1#8 <<< i).getLsbD j = _
    rw [← BitVec.twoPow_eq, BitVec.getLsbD_twoPow]
    obtain rfl | hji := eq_or_ne j i
    · simp [hj]
    · simp [hji, hji.symm]
  cases hv : v.getLsbD i with
  | true =>
    rw [orBitOf, if_pos hv, BitVec.getLsbD_or, hone]
    by_cases hji : j = i <;> simp [hji, hv]
  | false =>
    rw [orBitOf, if_neg (by simp [hv])]
    by_cases hji : j = i <;> simp [hji, hv]

/-- The bits of a byte ORed into 0 make the byte (R149). -/
theorem foldl_orBitOf (v : Byte) : bitsDown.foldl (orBitOf v) 0 = v := by
  refine BitVec.eq_of_getLsbD_eq fun j hj => ?_
  simp only [bitsDown, List.foldl, getLsbD_orBitOf, hj]
  interval_cases j <;> simp

/-- What reading bits leaves in the temporaries: the assembled byte and the last level (R149). -/
theorem foldl_readBit (v : Byte) (is : List Nat) (q : Seq) : is.foldl (readBit v) q =
    { q with byte := is.foldl (orBitOf v) q.byte, level := is.foldl (fun _ i => v.getLsbD i) q.level } := by
  induction is generalizing q with
  | nil => rfl
  | cons i is ih => exact ih _

/-- Eight bits read from 0, most significant first, make the byte (R149, R53). -/
theorem foldl_readBit_bitsDown (v : Byte) (q : Seq) :
    bitsDown.foldl (readBit v) { q with byte := 0 } = { q with byte := v, level := v.getLsbD 0 } := by
  rw [foldl_readBit, foldl_orBitOf]
  rfl

/-- The `j`-th bit read is bit `7 - j` (R53). -/
theorem bitsDown_getElem? {j i : Nat} (h : bitsDown[j]? = some i) : i < 8 ∧ j = 7 - i := by
  have hbits : ∀ j < 8, bitsDown[j]? = some (7 - j) := by decide
  have hj : j < 8 := (List.getElem?_eq_some_iff.mp h).1
  obtain rfl : 7 - j = i := Option.some.inj ((hbits j hj).symm.trans h)
  omega

/-- ReadByte: the byte is in `r`, CRC untouched (R149). -/
theorem runsTo_readByteText (p : Params) {ack : Bool} {v : Byte} {ds : List Draw} (h : ReadAnswers ack v ds) (q : Seq)
    (s : State) :
    RunsTo (readByteText p ack) (readRequests p ack) ds q s { q with byte := v, level := v.getLsbD 0 } s.crc
      s.pollcnt := by
  obtain ⟨hlen, hok, hbyte⟩ := h
  obtain ⟨d1, d2, rfl, h1, h2⟩ := exists_append_of_length 40 (if ack then 8 else 4) (by rw [hlen]; cases ack <;> rfl)
  obtain ⟨hok1, hok2⟩ := succeed_append.mp hok
  have hclear : RunsTo [.clearByte] [] [] q s { q with byte := 0 } s.crc s.pollcnt := .silent rfl fun _ _ => rfl
  have hbits : ∀ t, RunsTo (bitsDown.flatMap (readBitText p)) (List.replicate 8 (readBitRequests p)).flatten d1
      { q with byte := 0 } t { q with byte := v, level := v.getLsbD 0 } t.crc t.pollcnt := by
    intro t
    rw [← foldl_readBit_bitsDown]
    refine runsTo_readBits p bitsDown _ t h1 hok1 fun j i hj => ?_
    obtain ⟨hi, rfl⟩ := bitsDown_getElem? hj
    have hlevel := hbyte i hi
    rwa [levelAt, List.getElem?_append_left (by omega)] at hlevel
  have hend : ∀ t, RunsTo ((readByteText p ack).drop 49) ((readRequests p ack).drop 40) d2
      { q with byte := v, level := v.getLsbD 0 } t { q with byte := v, level := v.getLsbD 0 } t.crc t.pollcnt :=
    fun t => .requests (.of_succeed (by rw [h2]; cases ack <;> rfl) hok2) (by cases ack <;> rfl) (by cases ack <;> rfl)
  have hall := hclear.append ((hbits _).append (hend _))
  cases ack <;> exact hall

end Sys2Proof.Machine
end

section
/-! SUPPORT. The commands of 42_protocol.md: INIT and RESET (R141, R142), TSTART, SEND_BYTE and READ_BYTE (R143, R144,
R150), to their completion and their failures. -/

namespace Sys2Proof.Machine

open Sys2Proof

/-! ### INIT (R141) -/

/-- INIT is admitted unless a command runs (R80). -/
theorem admits_init {p : ProtoState} (h : p ≠ .transmitting) : admits .init p = true := by
  cases p with
  | transmitting => exact absurd rfl h
  | _ => rfl

/-- Settles O19: the whole text runs, and the command completes. -/
theorem initEstablishesTheIdleState : Obligations.InitEstablishesTheIdleState := by
  intro s ds rest hp ⟨hlen, hok⟩ hin
  have hrun : RunsTo (initText s.params) (initRequests s.params) ds (seqStart .init s.proto) (beginCommand .init s)
      (seqStart .init s.proto) s.crc s.pollcnt := .requests (.of_succeed hlen.symm hok) rfl rfl
  have hproto : initDone s.proto = if s.proto = .failed then .failed else .idle := by cases s.proto <;> rfl
  rw [hrun.exec_complete rfl (admits_init hp) hin, ← hproto]
  rfl

/-- Settles O20: the text runs up to the request that fails. The WAIT before it succeeds whatever is drawn (R111). -/
theorem failedInitLeavesUninitialized : Obligations.FailedInitLeavesUninitialized := by
  intro s d1 d2 d3 rest hp
  have hadm := admits_init hp
  have hwait : (d1.fail && mayFail (.wait s.params.tInit)) = false := Bool.and_false _
  refine ⟨fun hin hf => ?_, fun hin hok hf => ?_⟩
  · have hrun : RunsTo [.bus (.wait s.params.tInit)] [.wait s.params.tInit] [d1] (seqStart .init s.proto)
        (beginCommand .init s) (seqStart .init s.proto) s.crc s.pollcnt := .requests (.cons hwait .nil) rfl rfl
    exact ⟨_, hrun.exec_fail (st := .bus .clkLow) (l2 := [.bus .datLow]) rfl rfl hf rfl rfl hadm hin,
      endedWith_fail _ _, rfl, rfl, rfl, rfl, rfl, rfl, rfl⟩
  · have hclk : (d2.fail && mayFail .clkLow) = false := by rw [hok, Bool.false_and]
    have hrun : RunsTo [.bus (.wait s.params.tInit), .bus .clkLow] [.wait s.params.tInit, .clkLow] [d1, d2]
        (seqStart .init s.proto) (beginCommand .init s) (seqStart .init s.proto) s.crc s.pollcnt :=
      .requests (.cons hwait (.cons hclk .nil)) rfl rfl
    exact ⟨_, hrun.exec_fail (st := .bus .datLow) (l2 := []) rfl rfl hf rfl rfl hadm hin,
      endedWith_fail _ _, rfl, rfl, rfl, rfl, rfl, rfl, rfl⟩

/-! ### TSTART (R143, R145) -/

/-- Settles O22: the whole text runs, and the command completes. -/
theorem tstartClearsTheCrc : Obligations.TstartClearsTheCrc := by
  intro s ds rest hp hds hin
  have hrun := runsTo_tStartText s.params hds (seqStart .tstart s.proto) (beginCommand .tstart s)
  exact ⟨_, hrun.exec_complete rfl (by rw [hp]; rfl) hin, endedWith_complete rfl rfl, rfl, rfl, rfl, rfl, rfl, rfl, rfl⟩

/-- A list from its `n`-th element on. -/
theorem drop_eq_cons_of_getElem? {α : Type} {l : List α} {n : Nat} {a : α} (h : l[n]? = some a) :
    l.drop n = a :: l.drop (n + 1) := by
  obtain ⟨hn, rfl⟩ := List.getElem?_eq_some_iff.mp h
  exact List.drop_eq_getElem_cons hn

/-- TStart's text, cut at one of its requests. -/
theorem tStartText_cut (p : Params) {n : Nat} {r : Request} (h : (tStartRequests p)[n]? = some r) :
    tStartText p = ((tStartRequests p).take n).map .handshake ++
      .handshake r :: (((tStartRequests p).drop (n + 1)).map .handshake ++ [.clearCrc]) := by
  have hcut := List.take_append_drop n (tStartRequests p)
  rw [drop_eq_cons_of_getElem? h] at hcut
  calc tStartText p = (tStartRequests p).map .handshake ++ [.clearCrc] := rfl
    _ = _ := by
      rw [← congrArg (List.map Stmt.handshake) hcut, List.map_append, List.map_cons, List.append_assoc, List.cons_append]

/-- Settles O23: the text runs up to the line action that fails, which is inside TStart. -/
theorem failedTstartClearsTheCrc : Obligations.FailedTstartClearsTheCrc := by
  intro s ds d r rest hp hok hr hwait hf hin
  have hlen : ds.length < (tStartRequests s.params).length := (List.getElem?_eq_some_iff.mp hr).1
  have htake : (tStartRequests s.params).take (ds.length + 1) = (tStartRequests s.params).take ds.length ++ [r] := by
    rw [List.take_add_one, hr, Option.toList_some]
  have hrun : RunsTo (((tStartRequests s.params).take ds.length).map .handshake) ((tStartRequests s.params).take ds.length)
      ds (seqStart .tstart s.proto) (beginCommand .tstart s) (seqStart .tstart s.proto) s.crc s.pollcnt :=
    .requests (.of_succeed (List.length_take_of_le hlen.le) hok) (List.map_map ..)
      (List.any_eq_false.mpr fun x hx => List.any_eq_false.mp (by rfl) x (List.mem_of_mem_take hx))
  rw [htake]
  exact ⟨_, hrun.exec_fail (tStartText_cut s.params hr) rfl hf (mayFail_of_ne_wait hwait) rfl (by rw [hp]; rfl) hin,
    endedWith_fail _ r, (lineFailed_crc r _).trans (if_pos rfl), lineFailed_pollcnt r _, lineFailed_value r _,
    lineFailed_tempRaw r _, lineFailed_humRaw r _⟩

/-! ### SEND_BYTE (R144, R146) -/

/-- Settles O24: the whole text runs, and the command completes. -/
theorem sendByteFoldsAnAcknowledgedByte : Obligations.SendByteFoldsAnAcknowledgedByte := by
  intro s v ds rest hp hds hin
  have hrun := runsTo_sendByteText s.params v hds (seqStart (.sendByte v) s.proto) (beginCommand (.sendByte v) s)
  exact ⟨_, hrun.exec_complete rfl (by rw [hp]; rfl) hin, endedWith_complete rfl rfl, rfl, rfl, rfl, rfl, rfl, rfl, rfl⟩

/-- Settles O25: the text runs up to the sample, and the statement after it raises. -/
theorem sendByteNackLeavesTheCrc : Obligations.SendByteNackLeavesTheCrc := by
  intro s v ds rest hp ⟨hlen, hok, hnack⟩ hin
  have hrun := runsTo_sendByte_sample s.params v hlen hok hnack (seqStart (.sendByte v) s.proto)
    (beginCommand (.sendByte v) s)
  exact ⟨_, hrun.exec_raise (st := .checkAck v) (l2 := (sendByteText s.params v).drop 56) rfl rfl
    (fun _ => rfl) rfl (by rw [hp]; rfl) hin,
    endedWith_raise _, rfl, rfl, rfl, rfl, rfl, rfl, rfl⟩

/-! ### READ_BYTE (R150, R149) -/

/-- Settles O26: the whole text runs, and the command completes with the byte in VALUE. -/
theorem readByteAssemblesTheByte : Obligations.ReadByteAssemblesTheByte := by
  intro s ack v ds rest hp hds hin
  have hrun := runsTo_readByteText s.params hds (seqStart (.readByte ack) s.proto) (beginCommand (.readByte ack) s)
  refine ⟨_, hrun.exec_complete rfl (by rw [hp]; rfl) hin, endedWith_complete rfl rfl, rfl, rfl, rfl, rfl, rfl, ?_, ?_⟩
  · cases ack <;> rfl
  · cases ack <;> rfl

/-! ### RESET (R142) -/

/-- Reset before its TStart: the data line high, then the clock pulses. -/
theorem runsTo_resetPulses (p : Params) {ds : List Draw} (hlen : ds.length = 1 + 4 * p.resetToggles) (hok : Succeed ds)
    (q : Seq) (s : State) :
    RunsTo ([.bus .datHigh] ++ (List.replicate p.resetToggles (resetPulse p)).flatten)
      (.datHigh :: (List.replicate p.resetToggles [.clkHigh, .wait p.tBit, .clkLow, .wait p.tBit]).flatten) ds q s q s.crc
      s.pollcnt := by
  have hpulse : (resetPulse p).map Stmt.request? =
      [Request.clkHigh, .wait p.tBit, .clkLow, .wait p.tBit].map some := rfl
  refine .requests (.of_succeed ?_ hok) ?_ ?_
  · simp [hlen]
    omega
  · simp only [List.map_append, List.map_cons, List.map_flatten, List.map_replicate, hpulse]
    rfl
  · simp [carriesLevel]

/-- Reset: CRC at the reset byte folded into 0 (R142). -/
theorem runsTo_resetText (p : Params) {ds : List Draw} (h : ResetAnswers p ds) (q : Seq) (s : State) :
    RunsTo (resetText p) (resetRequests p) ds q s { q with level := false } (mutate s.params.poly 0x00 p.cmdReset)
      s.pollcnt := by
  obtain ⟨hlen, hok, hack⟩ := h
  obtain ⟨d12, d3, rfl, h12, h3⟩ := exists_append_of_length _ _ hlen
  obtain ⟨d1, d2, rfl, h1, h2⟩ := exists_append_of_length _ _ h12
  obtain ⟨hok12, hok3⟩ := succeed_append.mp hok
  obtain ⟨hok1, hok2⟩ := succeed_append.mp hok12
  rw [levelAt_append_right h12] at hack
  exact ((runsTo_resetPulses p h1 hok1 q s).append (runsTo_tStartText p ⟨h2, hok2⟩ q _)).append
    (runsTo_sendByteText p p.cmdReset ⟨h3, hok3, hack⟩ q _)

/-- Reset ends with its SendByte, which leaves CLK LOW and DAT RELEASED whatever they were. -/
theorem lines_resetRequests (p : Params) (x : ClkLevel) (y : DatLevel) :
    clkAfterAll (resetRequests p) x = .low ∧ datAfterAll (resetRequests p) y = .released := by
  simp only [resetRequests, List.foldl_append]
  exact ⟨rfl, rfl⟩

/-- Settles O21: the pulses, TStart and SendByte run one after the other, and the command completes. -/
theorem resetForcesTheSensorOut : Obligations.ResetForcesTheSensorOut := by
  intro s ds rest hp hds hin
  have hadm : admits .reset s.proto = true := by obtain h | h := hp <;> rw [h] <;> rfl
  have hrun := runsTo_resetText s.params hds (seqStart .reset s.proto) (beginCommand .reset s)
  obtain ⟨hclk, hdat⟩ := lines_resetRequests s.params s.clk s.dat
  refine ⟨_, hrun.exec_complete rfl hadm hin, endedWith_complete rfl rfl, rfl, fun hn => ⟨?_, ?_⟩, hclk, hdat, rfl, rfl,
    rfl, rfl⟩
  · rw [hds.1, hn]
    rfl
  · show mutate s.params.poly 0x00 s.params.cmdReset = 0x5C
    rw [hn]
    decide

end Sys2Proof.Machine
end

section
/-! SUPPORT. Where a command samples, its text has released the data line before (42_protocol.md R151, R238). -/

namespace Sys2Proof.Machine

open Sys2Proof

/-! ### The data line along a text -/

/-- The statements that need DAT RELEASED: a SAMPLE, and the poll loop's end, which goes back to one (R173). -/
def Stmt.needsRelease : Stmt → Bool
  | .bus .sample | .handshake .sample | .pollTest => true
  | _ => false

/-- DAT after a statement whose request, if it issues one, succeeds. -/
def Stmt.datThrough (x : DatLevel) (st : Stmt) : DatLevel := st.request?.elim x (datAfter · x)

/-- Run from DAT `x`, the text has DAT RELEASED wherever a statement needs it. -/
def samplesReleased (x : DatLevel) : List Stmt → Bool
  | [] => true
  | st :: l => (!st.needsRelease || x == .released) && samplesReleased (st.datThrough x) l

theorem samplesReleased_append (l1 l2 : List Stmt) (x : DatLevel) : samplesReleased x (l1 ++ l2) =
    (samplesReleased x l1 && samplesReleased (l1.foldl Stmt.datThrough x) l2) := by
  induction l1 generalizing x with
  | nil => rfl
  | cons st l1 ih => simp only [List.cons_append, samplesReleased, ih, Bool.and_assoc, List.foldl_cons]

/-- A text with no statement that needs DAT RELEASED. -/
theorem samplesReleased_of_any {l : List Stmt} (h : l.any Stmt.needsRelease = false) (x : DatLevel) :
    samplesReleased x l = true := by
  induction l generalizing x with
  | nil => rfl
  | cons st l ih =>
    rw [List.any_cons, Bool.or_eq_false_iff] at h
    rw [samplesReleased, h.1, ih h.2]
    rfl

/-- SendByte releases the data line before its own sample (R146). -/
theorem samplesReleased_sendByteText (p : Params) (v : Byte) (x : DatLevel) :
    samplesReleased x (sendByteText p v) = true := by
  have hbit : ∀ i, (sendBitText p v i).any Stmt.needsRelease = false := fun i => by
    rw [sendBitText]
    cases v.getLsbD i <;> rfl
  have hbits : (bitsDown.flatMap (sendBitText p v)).any Stmt.needsRelease = false := by
    simp only [List.any_flatMap, hbit]
    rfl
  simp only [sendByteText, List.append_assoc, samplesReleased_append, samplesReleased_of_any hbits]
  rfl

theorem samplesReleased_startMeasText (p : Params) (k : Kind) (x : DatLevel) :
    samplesReleased x (startMeasText p k) = true := by
  rw [startMeasText, samplesReleased_append, samplesReleased_sendByteText]
  rfl

theorem samplesReleased_resetText (p : Params) (x : DatLevel) : samplesReleased x (resetText p) = true := by
  have hpulse : (resetPulse p).any Stmt.needsRelease = false := rfl
  have hpulses : ((List.replicate p.resetToggles (resetPulse p)).flatten).any Stmt.needsRelease = false := by
    rw [List.any_flatten, List.any_replicate, hpulse]
    split <;> rfl
  simp only [resetText, samplesReleased_append, samplesReleased_of_any hpulses, samplesReleased_sendByteText]
  rfl

/-- ReadByte samples with DAT as it was, and drives it low and RELEASED again at most (R149). -/
theorem released_readByteText (p : Params) (a : Bool) : samplesReleased .released (readByteText p a) = true ∧
    (readByteText p a).foldl Stmt.datThrough .released = .released := by
  cases a <;> exact ⟨rfl, rfl⟩

theorem samplesReleased_readMeasText (p : Params) : samplesReleased .released (readMeasText p) = true := by
  simp only [readMeasText, samplesReleased_append, List.foldl_append, released_readByteText]
  rfl

/-- A measurement polls and reads with the data line RELEASED, by SendByte and by every acknowledgement of ReadByte
(R146, R149). -/
theorem samplesReleased_getValueText (p : Params) (k : Kind) (x : DatLevel) :
    samplesReleased x (getValueText p k) = true := by
  have hstart : (startMeasText p k).foldl Stmt.datThrough x = .released := rfl
  have hpoll : (pollText p).foldl Stmt.datThrough .released = .released := rfl
  rw [getValueText, samplesReleased_append, samplesReleased_append, samplesReleased_startMeasText, List.foldl_append,
    hstart, hpoll, samplesReleased_readMeasText]
  rfl

theorem samplesReleased_getValuesText (p : Params) (x : DatLevel) : samplesReleased x (getValuesText p) = true := by
  rw [getValuesText, samplesReleased_append, samplesReleased_append, samplesReleased_getValueText,
    samplesReleased_getValueText]
  rfl

/-! ### The poll loop's sample (R173) -/

/-- Two statements after the load of POLLCNT stands the loop's SAMPLE. -/
def SampleAfterLoad (l : List Stmt) : Prop := ∀ m, l[m]? = some .loadPoll → l[m + 2]? = some (.bus .sample)

theorem SampleAfterLoad.of_writesPollcnt {l : List Stmt} (h : l.any Stmt.writesPollcnt = false) : SampleAfterLoad l := by
  intro m hm
  rw [List.any_eq_false] at h
  exact absurd rfl (h _ (List.mem_of_getElem? hm))

theorem SampleAfterLoad.append {l1 l2 : List Stmt} (h1 : SampleAfterLoad l1) (h2 : SampleAfterLoad l2) :
    SampleAfterLoad (l1 ++ l2) := by
  intro m hm
  rcases Nat.lt_or_ge m l1.length with hlt | hge
  · rw [List.getElem?_append_left hlt] at hm
    have hsample := h1 m hm
    rwa [List.getElem?_append_left (List.getElem?_eq_some_iff.mp hsample).1]
  · rw [List.getElem?_append_right hge] at hm
    rw [List.getElem?_append_right (by omega), Nat.sub_add_comm hge]
    exact h2 _ hm

theorem SampleAfterLoad.pollText (p : Params) : SampleAfterLoad (pollText p) := by
  intro m hm
  match m, hm with
  | 0, _ => rfl
  | 1, h | 2, h | 3, h | _ + 4, h => cases h

theorem SampleAfterLoad.getValueText (p : Params) (k : Kind) : SampleAfterLoad (getValueText p k) :=
  ((of_writesPollcnt (writesPollcnt_startMeasText p k)).append (pollText p)).append
    (of_writesPollcnt (writesPollcnt_readMeasText p))

theorem SampleAfterLoad.textOf (p : Params) (i : Instr) : SampleAfterLoad (textOf p i) := by
  cases i with
  | poll => exact pollText p
  | getValue k => exact getValueText p k
  | getValues => exact ((getValueText p _).append (of_writesPollcnt rfl)).append (getValueText p _)
  | _ => exact of_writesPollcnt (writesPollcnt_textOf p nofun nofun nofun)

/-- The poll loop's end goes back to the body's WAIT and SAMPLE before it. -/
theorem seqRest_seqLoop {p : Params} {q : Seq} {l : List Stmt} (h : seqRest p q = .pollTest :: l) :
    seqRest p (seqLoop q) = .bus (.wait p.tPoll) :: .bus .sample :: .pollTest :: l := by
  have hhead : (textOf p q.cmd)[q.pos]? = some .pollTest := by simpa [h] using (seqRest_getElem? p q 0).symm
  obtain ⟨m, hm, hload, hwait⟩ := PollShaped.textOf p q.cmd _ hhead
  have hsample := SampleAfterLoad.textOf p q.cmd m hload
  rw [← h, seqRest, seqRest, seqLoop_cmd, seqLoop_pos, show q.pos - 2 = m + 1 by omega,
    drop_eq_cons_of_getElem? hwait, drop_eq_cons_of_getElem? hsample, hm]

/-! ### A running command -/

/-- Nothing is outstanding, or the running command stands at the outstanding request, with DAT as the rest of its text
needs it. -/
def Releases (t : State) : Prop :=
  t.request = none ∨ ∃ q st l r, t.seq = some q ∧ seqRest t.params q = st :: l ∧ st.request? = some r ∧
    t.request = some r.word ∧ samplesReleased t.dat (st :: l) = true

theorem releases_awaitAnswer {q : Seq} {s : State} {st : Stmt} {l : List Stmt} {r : Request}
    (hl : seqRest s.params q = st :: l) (hr : st.request? = some r) (h : samplesReleased s.dat (st :: l) = true) :
    Releases (awaitAnswer r q s) :=
  .inr ⟨q, st, l, r, rfl, hl, hr, rfl, h⟩

/-- The statements up to the next request, the end of the text or a failure do not drive DAT. -/
theorem releases_advance (l : List Stmt) : ∀ (q : Seq) (s : State), seqRest s.params q = l →
    samplesReleased s.dat l = true → Releases (advance l q s) := by
  induction l with
  | nil => exact fun q s _ _ => .inl rfl
  | cons st rest ih =>
    intro q s hl h
    have go : ∀ (q0 : Seq) (c : Accum) (b : Byte), st.request? = none → q0.cmd = q.cmd → q0.pos = q.pos →
        Releases (advance rest (seqNext q0) { s with crc := c, pollcnt := b }) := by
      intro q0 c b hst hc hp
      refine ih _ _ ?_ ?_
      · show seqRest s.params _ = _
        rw [seqRest_seqNext, seqRest_congr hc hp, hl, List.tail_cons]
      · rw [samplesReleased, Stmt.datThrough, hst, Bool.and_eq_true] at h
        exact h.2
    cases st with
    | bus r => exact releases_awaitAnswer hl rfl h
    | handshake r => exact releases_awaitAnswer hl rfl h
    | pollTest =>
      have hloop : Releases (awaitAnswer (.wait s.params.tPoll) (seqLoop q) { s with pollcnt := s.pollcnt - 1 }) := by
        refine releases_awaitAnswer (seqRest_seqLoop hl) rfl ?_
        obtain ⟨hdat, -⟩ := Bool.and_eq_true_iff.mp h
        have hback : samplesReleased s.dat (.bus (.wait s.params.tPoll) :: .bus .sample :: .pollTest :: rest) =
            ((s.dat == .released) && samplesReleased s.dat (.pollTest :: rest)) := rfl
        exact hback.trans (Bool.and_eq_true_iff.mpr ⟨hdat, h⟩)
      simp only [advance]
      split_ifs
      · exact .inl rfl
      · exact hloop
      · exact go q s.crc s.pollcnt rfl rfl rfl
    | checkAck v =>
      simp only [advance]
      split
      · exact .inl rfl
      · exact go q s.crc s.pollcnt rfl rfl rfl
    | compareCrc =>
      simp only [advance]
      split
      · exact .inl rfl
      · exact go q s.crc s.pollcnt rfl rfl rfl
    | clearCrc => exact go q 0x00 s.pollcnt rfl rfl rfl
    | foldCrc v => exact go q (mutate s.params.poly s.crc v) s.pollcnt rfl rfl rfl
    | loadPoll => exact go q s.crc s.params.pollLimit rfl rfl rfl
    | clearByte => exact go { q with byte := 0x00 } s.crc s.pollcnt rfl rfl rfl
    | orBit i => exact go (seqOrBit i q) s.crc s.pollcnt rfl rfl rfl
    | takeHi => exact go { q with hi := q.byte } (mutate s.params.poly s.crc q.byte) s.pollcnt rfl rfl rfl
    | takeLo => exact go { q with lo := q.byte } (mutate s.params.poly s.crc q.byte) s.pollcnt rfl rfl rfl
    | takeChk => exact go { q with chk := q.byte } s.crc s.pollcnt rfl rfl rfl
    | takeTemp => exact go { q with temp := composeRaw q.hi q.lo } s.crc s.pollcnt rfl rfl rfl

/-- An answer drives DAT as the statement says, or ends the command. -/
theorem Releases.resume_answerRequest {t : State} (h : Releases t) {w : ReqWord} {r : Request} (hw : t.request = some w)
    (hd : decodeRequest w = .ok r) (d : Draw) : Releases (resume (answerRequest r d t)) := by
  obtain hnone | ⟨q, st, l, r', hq, hl, hr, hreq, hdat⟩ := h
  · rw [hnone] at hw
    cases hw
  · obtain rfl : r' = r := by
      obtain rfl : r'.word = w := Option.some.inj (hreq.symm.trans hw)
      rw [decodeRequest_word] at hd
      exact Except.ok.inj hd
    obtain ⟨e, hgo⟩ | ⟨x, hgo⟩ := resume_takeResponse r' (respond r' d) hq
    · rw [answerRequest, hgo]
      exact .inl rfl
    · rw [answerRequest, hgo, advanceFrom]
      refine releases_advance _ _ _ rfl ?_
      have hrest : seqRest t.params (seqNext { q with level := x }) = l :=
        (seqRest_seqNext _ _).trans (congrArg List.tail hl)
      have hline : (lineDone r' (responseLevel (respond r' d)) (recordEvent r' (respond r' d) t)).dat =
          datAfter r' t.dat := by cases r' <;> rfl
      rw [samplesReleased, Stmt.datThrough, hr, Bool.and_eq_true] at hdat
      rw [lineDone_params, recordEvent_params, hrest, hline]
      exact hdat.2

/-- A command whose text samples with DAT RELEASED does so however far it runs. -/
theorem releases_of_runCommand {i : Instr} {s t : State} (hi : samplesReleased s.dat (textOf s.params i) = true)
    (h : runCommand i s = .next t) : Releases t := by
  obtain ⟨-, rfl⟩ := runCommand_next i s t h
  exact drain_keeps Releases (fun _ _ h => h) (fun _ _ _ d h hw hd => h.resume_answerRequest hw hd d) _ _
    (releases_advance _ _ (beginCommand i s) rfl hi)

/-- An outstanding SAMPLE finds DAT RELEASED. -/
theorem Releases.dat_eq {t : State} (h : Releases t) (hw : t.request = some Request.sample.word) : t.dat = .released := by
  obtain hnone | ⟨q, st, l, r, -, -, hr, hreq, hdat⟩ := h
  · rw [hnone] at hw
    cases hw
  · have hword : decodeRequest r.word = decodeRequest Request.sample.word :=
      congrArg decodeRequest (Option.some.inj (hreq.symm.trans hw))
    rw [decodeRequest_word, decodeRequest_word] at hword
    obtain rfl := Except.ok.inj hword
    have hneeds : st.needsRelease = true := by cases st <;> cases hr <;> rfl
    rw [samplesReleased, hneeds, Bool.and_eq_true] at hdat
    exact eq_of_beq hdat.1

/-- Settles O50: each of the four texts samples with DAT RELEASED, whatever DAT was. -/
theorem composedSamplesAreReleased : Obligations.ComposedSamplesAreReleased := by
  intro i s t hi hexec hw
  have htext : i.isCommand = true ∧ samplesReleased s.dat (textOf s.params i) = true := by
    obtain rfl | ⟨k, rfl⟩ | ⟨k, rfl⟩ | rfl := hi
    · exact ⟨rfl, samplesReleased_resetText s.params s.dat⟩
    · exact ⟨rfl, samplesReleased_startMeasText s.params k s.dat⟩
    · exact ⟨rfl, samplesReleased_getValueText s.params k s.dat⟩
    · exact ⟨rfl, samplesReleased_getValuesText s.params s.dat⟩
  rw [exec_command i s htext.1] at hexec
  exact (releases_of_runCommand htext.2 hexec).dat_eq hw

end Sys2Proof.Machine
end

section
/-! SUPPORT. The operations of 43_measurement.md, each as a stretch of text: StartMeas (R172), Poll (R173), ReadMeas
(R174) and GetValue (R178), and the raw value ReadMeas composes (R181). -/

namespace Sys2Proof.Machine

open Sys2Proof

/-! ### Two bytes in a word (R181, R209) -/

/-- A byte above another in a word: FAULT_INFO of a checksum mismatch (R209). -/
theorem zext16_shiftLeft_or (hi lo : Byte) : (zext16 hi <<< 8) ||| zext16 lo = hi ++ lo := by
  rw [BitVec.append_def, BitVec.shiftLeftZeroExtend_eq]
  rfl

/-- The low byte of `hi << 8` is zero (R181). -/
theorem zext16_shiftLeft_and (hi lo : Byte) : (zext16 hi <<< 8) &&& zext16 lo = 0 := by
  refine BitVec.eq_of_getLsbD_eq fun j _ => ?_
  by_cases hj : j < 8
  · simp [zext16, hj]
  · simp [zext16, BitVec.getLsbD_of_ge lo j (Nat.le_of_not_lt hj)]

/-- Settles O43: the addition never carries, so it is the OR of two bytes side by side. -/
theorem rawValueIsTheConcatenation : Obligations.RawValueIsTheConcatenation := by
  intro hi lo
  rw [composeRaw, BitVec.add_eq_or_of_and_eq_zero _ _ (zext16_shiftLeft_and hi lo), zext16_shiftLeft_or]

/-! ### StartMeas (R172) -/

/-- StartMeas acknowledged: CRC at the command byte folded into 0 (R172). -/
theorem runsTo_startMeasText (p : Params) (k : Kind) {ds : List Draw} (h : StartAnswers ds) (q : Seq) (s : State) :
    RunsTo (startMeasText p k) (startRequests p (commandByteFor p k)) ds q s { q with level := false }
      (mutate s.params.poly 0x00 (commandByteFor p k)) s.pollcnt := by
  obtain ⟨hlen, hok, hack⟩ := h
  obtain ⟨d1, d2, rfl, h1, h2⟩ := exists_append_of_length 12 57 hlen
  obtain ⟨hok1, hok2⟩ := succeed_append.mp hok
  have hack2 : levelAt d2 54 = some false := (levelAt_append_right h1 d2 54).symm.trans hack
  exact (runsTo_tStartText p ⟨h1, hok1⟩ q s).append (runsTo_sendByteText p (commandByteFor p k) ⟨h2, hok2, hack2⟩ q _)

/-- StartMeas up to the acknowledgement sample, which is HIGH: CRC cleared (R145, R148). -/
theorem runsTo_startMeas_nack (p : Params) (k : Kind) {d1 d2 : List Draw} (h1 : TStartAnswers d1) (h2 : NackAnswers d2)
    (q : Seq) (s : State) :
    RunsTo ((startMeasText p k).take 68) ((startRequests p (commandByteFor p k)).take 67) (d1 ++ d2) q s
      { q with level := true } 0x00 s.pollcnt := by
  obtain ⟨hlen, hok, hnack⟩ := h2
  exact (runsTo_tStartText p h1 q s).append (runsTo_sendByte_sample p (commandByteFor p k) hlen hok hnack q _)

/-! ### Poll (R173) -/

/-- The poll loop's body (R173). -/
def pollBody (p : Params) : List Stmt := [.bus (.wait p.tPoll), .bus .sample, .pollTest]

/-- From the start of the poll loop's body the requests `rs`, which the draws `ds` answer, lead to the body's end, where
the last sample is tested, with the temporaries of `q'` and POLLCNT `b`. The loop may have gone round. -/
structure PollsTo (rs : List Request) (ds : List Draw) (q : Seq) (s : State) (q' : Seq) (b : Byte) : Prop where
  length : rs.length = ds.length
  drain_eq : ∀ n l2 ins, seqRest s.params (seqAt q n) = pollBody s.params ++ l2 →
    ∃ m, seqRest s.params (seqAt q' m) = .pollTest :: l2 ∧
      drain (answers ds ++ ins) (advance (pollBody s.params ++ l2) (seqAt q n) s) =
        drain ins (advance (.pollTest :: l2) (seqAt q' m) (served rs ds s.crc b s))

section
variable {rs r1 r2 : List Request} {ds d1 d2 : List Draw} {q q1 q2 : Seq} {s : State} {b b1 b2 : Byte}

/-- One sample (R173). -/
theorem PollsTo.sample {l : Bool} (hlen : ds.length = 2) (hok : Succeed ds) (hl : levelAt ds 1 = some l) :
    PollsTo [.wait s.params.tPoll, .sample] ds q s { q with level := l } s.pollcnt := by
  obtain ⟨dw, d, rfl⟩ := List.length_eq_two.mp hlen
  obtain rfl : d.level = l := Option.some.inj hl
  have hd : d.fail = false := hok d (by simp)
  have hwait : RunsTo [.bus (.wait s.params.tPoll)] [.wait s.params.tPoll] [dw] q s q s.crc s.pollcnt :=
    .request rfl (Bool.and_false _)
  have hrun := hwait.append (.request (st := .bus .sample) (r := .sample) (d := d) rfl (by rw [hd, Bool.false_and]))
  exact ⟨rfl, fun n l2 ins hrest => hrun.drain_eq n (.pollTest :: l2) ins hrest⟩

/-- A HIGH sample that leaves POLLCNT above 0 sends the command back to the start of the loop's body (R173). -/
theorem advance_pollTest_again {l2 : List Stmt} (hl : q.level = true) (hb : s.pollcnt - 1 ≠ 0) :
    advance (.pollTest :: l2) q s =
      advance (pollBody s.params ++ l2) (seqLoop q) { s with pollcnt := s.pollcnt - 1 } := by
  rw [advance, if_pos hl, if_neg hb]
  rfl

/-- A HIGH sample, and the loop goes round (R173). -/
theorem PollsTo.again (h1 : PollsTo r1 d1 q s q1 b) (hl : q1.level = true) (hb : b - 1 ≠ 0)
    (h2 : PollsTo r2 d2 q1 (served r1 d1 s.crc (b - 1) s) q2 b2) : PollsTo (r1 ++ r2) (d1 ++ d2) q s q2 b2 where
  length := by simp [h1.length, h2.length]
  drain_eq := by
    intro n l2 ins hrest
    obtain ⟨m, hm, hgo1⟩ := h1.drain_eq n l2 (answers d2 ++ ins) hrest
    obtain ⟨k, hk, hgo2⟩ := h2.drain_eq (m - 2) l2 ins (seqRest_seqLoop hm)
    refine ⟨k, hk, ?_⟩
    calc drain (answers (d1 ++ d2) ++ ins) (advance (pollBody s.params ++ l2) (seqAt q n) s)
        = drain (answers d1 ++ (answers d2 ++ ins)) (advance (pollBody s.params ++ l2) (seqAt q n) s) := by
          simp [answers]
      _ = drain (answers d2 ++ ins) (advance (.pollTest :: l2) (seqAt q1 m) (served r1 d1 s.crc b s)) := hgo1
      _ = drain (answers d2 ++ ins) (advance (pollBody s.params ++ l2) (seqAt q1 (m - 2))
            (served r1 d1 s.crc (b - 1) s)) :=
          congrArg _ (advance_pollTest_again (q := seqAt q1 m) hl hb)
      _ = drain ins (advance (.pollTest :: l2) (seqAt q2 k) (served (r1 ++ r2) (d1 ++ d2) s.crc b2 s)) := by
          rw [← served_served h1.length]
          exact hgo2

/-- The loop ends at a LOW sample (R173). -/
theorem PollsTo.ready (h : PollsTo rs ds q s q1 b) (hl : q1.level = false) :
    RunsTo (pollBody s.params) rs ds q s q1 s.crc b where
  length := h.length
  drain_eq := by
    intro n l2 ins hrest
    obtain ⟨m, hm, hgo⟩ := h.drain_eq n l2 ins hrest
    refine ⟨m + 1, seqRest_seqAt_succ rfl hm, hgo.trans (congrArg _ ?_)⟩
    rw [advance, if_neg (by simp [seqAt, hl])]
    rfl

end

/-- `n` HIGH samples, fewer than POLLCNT, then one more: POLLCNT has gone down by `n` (R173). -/
theorem pollsTo_samples (n : Nat) : ∀ {ds : List Draw} {l : Bool} (q : Seq) (s : State), n < s.pollcnt.toNat →
    ds.length = 2 * (n + 1) → Succeed ds → (∀ j < n, levelAt ds (2 * j + 1) = some true) →
    levelAt ds (2 * n + 1) = some l →
    PollsTo (pollRequests s.params (n + 1)) ds q s { q with level := l } (s.pollcnt - BitVec.ofNat 8 n) := by
  induction n with
  | zero =>
    intro ds l q s _ hlen hok _ hlast
    rw [show s.pollcnt - BitVec.ofNat 8 0 = s.pollcnt from BitVec.sub_zero _]
    exact .sample hlen hok hlast
  | succ n ih =>
    intro ds l q s hn hlen hok hhigh hlast
    obtain ⟨d1, d2, rfl, h1, h2⟩ := exists_append_of_length 2 (2 * (n + 1)) (by rw [hlen]; omega)
    obtain ⟨hok1, hok2⟩ := succeed_append.mp hok
    have hshift : ∀ j, levelAt (d1 ++ d2) (2 * (j + 1) + 1) = levelAt d2 (2 * j + 1) := fun j => by
      rw [show 2 * (j + 1) + 1 = 2 + (2 * j + 1) by omega, levelAt_append_right h1]
    have hfirst : levelAt d1 1 = some true := by
      have h := hhigh 0 n.succ_pos
      rwa [levelAt, List.getElem?_append_left (by omega)] at h
    have hcount : s.pollcnt - 1 ≠ 0 ∧ n < (s.pollcnt - 1).toNat ∧
        s.pollcnt - BitVec.ofNat 8 (n + 1) = s.pollcnt - 1 - BitVec.ofNat 8 n := by
      refine ⟨?_, ?_, ?_⟩ <;> bv_omega
    obtain ⟨hgo, hfew, hsub⟩ := hcount
    rw [hsub]
    exact (PollsTo.sample h1 hok1 hfirst).again rfl hgo (ih { q with level := true }
      (served [.wait s.params.tPoll, .sample] d1 s.crc (s.pollcnt - 1) s) hfew h2 hok2
      (fun j hj => (hshift j).symm.trans (hhigh (j + 1) (by omega))) ((hshift n).symm.trans hlast))

/-- Poll, ready on the `k`-th sample (R173). -/
theorem runsTo_pollText {k : Nat} {ds : List Draw} (q : Seq) (s : State) (h : ReadyAnswers s.params k ds) :
    RunsTo (pollText s.params) (pollRequests s.params k) ds q s { q with level := false } s.crc
      (s.params.pollLimit - BitVec.ofNat 8 (k - 1)) := by
  obtain ⟨hk, hlimit, hlen, hok, hlevels⟩ := h
  obtain ⟨n, rfl⟩ := Nat.exists_eq_add_of_le' hk
  have hload : RunsTo [.loadPoll] [] [] q s q s.crc s.params.pollLimit := .silent rfl fun _ _ => rfl
  have hsamples := pollsTo_samples n q (served [] [] s.crc s.params.pollLimit s) hlimit hlen hok
    (fun j hj => by rw [hlevels j (by omega), decide_eq_true (by omega)])
    (by rw [hlevels n (by omega), decide_eq_false (by omega)])
  exact hload.append (hsamples.ready rfl)

/-- POLLCNT after `k` samples, the last of them LOW (R173). -/
theorem toNat_pollcnt_ready {limit : Byte} {k : Nat} (hk : 1 ≤ k) (hlimit : k ≤ limit.toNat) :
    (limit - BitVec.ofNat 8 (k - 1)).toNat = limit.toNat + 1 - k := by
  bv_omega

/-! ### The statements between the reads (R174, R179) -/

section
variable {l : List Stmt} {rs : List Request} {ds : List Draw} {q q1 q2 : Seq} {s : State} {c c2 : Accum} {b b2 : Byte}

/-- A stretch, and then a statement that issues no request. -/
theorem RunsTo.append_silent {st : Stmt} (h1 : RunsTo l rs ds q s q1 c b)
    (h2 : RunsTo [st] [] [] q1 (served rs ds c b s) q2 c2 b2) : RunsTo (l ++ [st]) rs ds q s q2 c2 b2 := by
  have hall := h1.append h2
  rwa [List.append_nil, List.append_nil] at hall

theorem RunsTo.takeHi (h : RunsTo l rs ds q s q1 c b) :
    RunsTo (l ++ [.takeHi]) rs ds q s { q1 with hi := q1.byte } (mutate s.params.poly c q1.byte) b :=
  h.append_silent (.silent rfl fun _ _ => rfl)

theorem RunsTo.takeLo (h : RunsTo l rs ds q s q1 c b) :
    RunsTo (l ++ [.takeLo]) rs ds q s { q1 with lo := q1.byte } (mutate s.params.poly c q1.byte) b :=
  h.append_silent (.silent rfl fun _ _ => rfl)

theorem RunsTo.takeChk (h : RunsTo l rs ds q s q1 c b) :
    RunsTo (l ++ [.takeChk]) rs ds q s { q1 with chk := q1.byte } c b :=
  h.append_silent (.silent rfl fun _ _ => rfl)

theorem RunsTo.takeTemp (h : RunsTo l rs ds q s q1 c b) :
    RunsTo (l ++ [.takeTemp]) rs ds q s { q1 with temp := composeRaw q1.hi q1.lo } c b :=
  h.append_silent (.silent rfl fun _ _ => rfl)

/-- The check passes where CRC is the mirrored checksum (R127). -/
theorem advance_compareCrc_agree (h : s.crc = mirror q.chk) (l : List Stmt) :
    advance (.compareCrc :: l) q s = advance l (seqNext q) s := by
  rw [advance, if_neg (not_not_intro h)]

/-- The check raises where CRC is not the mirrored checksum (R127, R204). -/
theorem advance_compareCrc_mismatch (h : s.crc ≠ mirror q.chk) (l : List Stmt) :
    advance (.compareCrc :: l) q s = raise (.checksumMismatch s.crc q.chk) { s with seq := some q } := by
  rw [advance, if_pos h]

theorem RunsTo.compareCrc (h : RunsTo l rs ds q s q1 c b) (hchk : c = mirror q1.chk) :
    RunsTo (l ++ [.compareCrc]) rs ds q s q1 c b :=
  h.append_silent (.silent rfl fun n l2 => advance_compareCrc_agree (q := seqAt q1 n) hchk l2)

end

/-! ### ReadMeas (R174) -/

/-- ReadMeas before its check (R174). -/
def readMeasBody (p : Params) : List Stmt :=
  readByteText p true ++ [.takeHi] ++ readByteText p true ++ [.takeLo] ++ readByteText p false ++ [.takeChk]

theorem readMeasText_eq (p : Params) : readMeasText p = readMeasBody p ++ [.compareCrc] :=
  (List.append_assoc _ [Stmt.takeChk] [Stmt.compareCrc]).symm

/-- The temporaries after the three bytes of a reading (R174). -/
def readTriple (hi lo chk : Byte) (q : Seq) : Seq :=
  { q with byte := chk, hi := hi, lo := lo, chk := chk, level := chk.getLsbD 0 }

/-- ReadMeas before its check: the two data bytes folded into CRC (R174). -/
theorem runsTo_readMeasBody (p : Params) {hi lo chk : Byte} {ds : List Draw} (h : ReadMeasAnswers hi lo chk ds) (q : Seq)
    (s : State) :
    RunsTo (readMeasBody p) (readMeasRequests p) ds q s (readTriple hi lo chk q)
      (mutate s.params.poly (mutate s.params.poly s.crc hi) lo) s.pollcnt := by
  obtain ⟨d1, d2, d3, rfl, h1, h2, h3⟩ := h
  have hhi := (runsTo_readByteText p h1 q s).takeHi
  have hlo := (hhi.append (runsTo_readByteText p h2 _ _)).takeLo
  exact (hlo.append (runsTo_readByteText p h3 _ _)).takeChk

/-! ### GetValue (R178) -/

/-- GetValue before its check (R178). -/
def getValueBody (p : Params) (k : Kind) : List Stmt := startMeasText p k ++ pollText p ++ readMeasBody p

theorem getValueText_eq (p : Params) (k : Kind) : getValueText p k = getValueBody p k ++ [.compareCrc] := by
  rw [getValueText, readMeasText_eq, getValueBody, List.append_assoc _ (readMeasBody p)]

/-- GetValue before its check: CRC over the command byte and the two data bytes (R121, R178). -/
theorem runsTo_getValueBody {k : Nat} {hi lo chk : Byte} {ds : List Draw} (kind : Kind) (q : Seq) (s : State)
    (h : GetValueAnswers s.params k hi lo chk ds) :
    RunsTo (getValueBody s.params kind) (getValueRequests s.params (commandByteFor s.params kind) k) ds q s
      (readTriple hi lo chk q) (measuredCrc s.params (commandByteFor s.params kind) hi lo)
      (s.params.pollLimit - BitVec.ofNat 8 (k - 1)) := by
  obtain ⟨d1, d2, d3, rfl, h1, h2, h3⟩ := h
  exact ((runsTo_startMeasText s.params kind h1 q s).append (runsTo_pollText _ _ h2)).append
    (runsTo_readMeasBody s.params h3 _ _)

/-- GetValue ends with its ReadMeas, which leaves CLK LOW and DAT RELEASED whatever they were (R149). -/
theorem lines_getValueRequests (p : Params) (cmd : Byte) (k : Nat) (x : ClkLevel) (y : DatLevel) :
    clkAfterAll (getValueRequests p cmd k) x = .low ∧ datAfterAll (getValueRequests p cmd k) y = .released := by
  simp only [getValueRequests, List.foldl_append]
  exact ⟨rfl, rfl⟩

end Sys2Proof.Machine
end

section
/-! SUPPORT. The commands of 43_measurement.md: START_MEAS, POLL, READ_MEAS, GET_VALUE and GET_VALUES (R175 to R179), to
their completion and their failures. -/

namespace Sys2Proof.Machine

open Sys2Proof

/-! ### START_MEAS (R175) -/

/-- Settles O27: the whole text runs, and the command completes. -/
theorem startMeasSendsTheCommandByte : Obligations.StartMeasSendsTheCommandByte := by
  intro s k ds rest hp hds hin
  have hrun := runsTo_startMeasText s.params k hds (seqStart (.startMeas k) s.proto) (beginCommand (.startMeas k) s)
  exact ⟨_, hrun.exec_complete rfl (by rw [hp]; rfl) hin, endedWith_complete rfl rfl, rfl, rfl, rfl, rfl, rfl, rfl, rfl⟩

/-- The text of a measurement command begins with its StartMeas (R175, R178, R179). -/
theorem textOf_measurement (p : Params) {i : Instr} {kind : Kind}
    (hi : i = .startMeas kind ∨ i = .getValue kind ∨ (i = .getValues ∧ kind = .temperature)) :
    ∃ l, textOf p i = startMeasText p kind ++ l := by
  obtain rfl | rfl | ⟨rfl, rfl⟩ := hi
  · exact ⟨[], (List.append_nil _).symm⟩
  · exact ⟨pollText p ++ readMeasText p, List.append_assoc ..⟩
  · exact ⟨pollText p ++ readMeasText p ++ [.takeTemp] ++ getValueText p .humidity, by
      simp only [textOf, getValuesText, getValueText, List.append_assoc]⟩

/-- StartMeas's text, cut at its acknowledgement check (R146, R172). -/
theorem startMeasText_cut (p : Params) (k : Kind) : startMeasText p k =
    (startMeasText p k).take 68 ++ .checkAck (commandByteFor p k) :: (startMeasText p k).drop 69 := by
  have hcheck : (startMeasText p k)[68]? = some (.checkAck (commandByteFor p k)) := rfl
  rw [← drop_eq_cons_of_getElem? hcheck, List.take_append_drop]

/-- Settles O35: the text runs up to the acknowledgement sample of its StartMeas, and the statement after it raises. -/
theorem unacknowledgedMeasurementStops : Obligations.UnacknowledgedMeasurementStops := by
  intro s i kind d1 d2 rest hp hi h1 h2 hin
  obtain ⟨l, htext⟩ := textOf_measurement s.params hi
  have hadm : admits i s.proto = true := by obtain rfl | rfl | ⟨rfl, -⟩ := hi <;> rw [hp] <;> rfl
  have hstate : failureState (some i) = .failed := by obtain rfl | rfl | ⟨rfl, -⟩ := hi <;> rfl
  have hcut : textOf s.params i = (startMeasText s.params kind).take 68 ++
      .checkAck (commandByteFor s.params kind) :: ((startMeasText s.params kind).drop 69 ++ l) := by
    rw [htext, ← List.cons_append, ← List.append_assoc, ← startMeasText_cut]
  have hrun := runsTo_startMeas_nack s.params kind h1 h2 (seqStart i s.proto) (beginCommand i s)
  exact ⟨_, hrun.exec_raise hcut rfl (fun _ => rfl) rfl hadm hin, hstate ▸ endedWith_raise _, rfl, rfl, rfl, rfl, rfl,
    rfl, rfl⟩

/-! ### POLL (R176) -/

/-- The requests of Poll drive neither line (R173). -/
theorem lines_pollRequests (p : Params) (k : Nat) (x : ClkLevel) (y : DatLevel) :
    clkAfterAll (pollRequests p k) x = x ∧ datAfterAll (pollRequests p k) y = y := by
  induction k with
  | zero => exact ⟨rfl, rfl⟩
  | succ k ih => exact ih

/-- Settles O28: the whole text runs, and the command completes. -/
theorem pollSucceedsOnTheReadySample : Obligations.PollSucceedsOnTheReadySample := by
  intro s k ds rest hp hds hin
  have hrun := runsTo_pollText (seqStart .poll s.proto) (beginCommand .poll s) hds
  obtain ⟨hclk, hdat⟩ := lines_pollRequests s.params k s.clk s.dat
  obtain ⟨hk, hlimit, -, -, -⟩ := hds
  exact ⟨_, hrun.exec_complete rfl (by rw [hp]; rfl) hin, endedWith_complete rfl rfl, toNat_pollcnt_ready hk hlimit, rfl,
    hclk, hdat, rfl, rfl, rfl⟩

/-- A statement that issues no request raises: the command has failed (R206, R208). -/
theorem drain_raise {t : State} {q : Seq} {st : Stmt} {l : List Stmt} (e : Failure) (ins : List Input)
    (hrest : seqRest t.params q = st :: l) (hst : st.request? = none) :
    drain ins (raise e { t with seq := some q }) = failedWith q.cmd e ins t := by
  have hhand : inHandshake { t with seq := some q } = false :=
    inHandshake_eq_false_of_silent rfl (congrArg List.head? hrest) hst
  rw [drain_idle _ _ rfl, raise, hhand]
  rfl

/-- The HIGH sample that takes POLLCNT to 0 raises (R173, R203). -/
theorem advance_pollTest_timeout {q : Seq} {s : State} (hl : q.level = true) (hb : s.pollcnt - 1 = 0) (l : List Stmt) :
    advance (.pollTest :: l) q s = raise .measurementTimeout { s with pollcnt := 0, seq := some q } := by
  rw [advance, if_pos hl, if_pos hb, hb]

/-- POLL with POLL_LIMIT HIGH samples fails at the last of them (R173, R203). -/
theorem exec_poll_timeout {s : State} {ds : List Draw} {ins : List Input} (hp : s.proto = .idle)
    (hds : NeverReadyAnswers s.params ds) (hin : s.inputs = answers ds ++ ins) :
    exec .poll s = .next (failedWith .poll .measurementTimeout ins
      (served (pollRequests s.params s.params.pollLimit.toNat) ds s.crc 0 s)) := by
  obtain ⟨hpos, hlen, hok, hhigh⟩ := hds
  obtain ⟨n, hn⟩ := Nat.exists_eq_add_of_le' hpos
  rw [hn] at hlen hhigh ⊢
  have hload : RunsTo [.loadPoll] [] [] (seqStart .poll s.proto) (beginCommand .poll s) (seqStart .poll s.proto) s.crc
      s.params.pollLimit := .silent rfl fun _ _ => rfl
  obtain ⟨a, ha, hexec⟩ := hload.exec_eq (l2 := pollBody s.params) (ins := answers ds ++ ins) rfl (by rw [hp]; rfl) hin
  have hsamples := pollsTo_samples n (seqStart .poll s.proto) (served [] [] s.crc s.params.pollLimit (beginCommand .poll s))
    (by show n < s.params.pollLimit.toNat; omega) hlen hok (fun j hj => hhigh j (by omega)) (hhigh n (by omega))
  obtain ⟨m, hm, hgo⟩ := hsamples.drain_eq a [] ins ha
  have hlast : s.params.pollLimit - BitVec.ofNat 8 n - 1 = 0 := by bv_omega
  rw [hexec]
  refine congrArg _ (hgo.trans ?_)
  rw [advance_pollTest_timeout rfl hlast]
  exact drain_raise (t := served (pollRequests s.params (n + 1)) ds s.crc 0 (beginCommand .poll s)) _ ins hm rfl

/-- Settles O29: POLLCNT is 0 at the last of the POLL_LIMIT samples. -/
theorem pollTimesOutAfterSixtyTwoSamples : Obligations.PollTimesOutAfterSixtyTwoSamples := by
  intro s ds rest hp hds hin
  obtain ⟨hclk, hdat⟩ := lines_pollRequests s.params s.params.pollLimit.toNat s.clk s.dat
  refine ⟨_, exec_poll_timeout hp hds hin, endedWith_raise _, fun hn => ?_, rfl, rfl, hclk, hdat, rfl, rfl, rfl⟩
  obtain ⟨-, hlen, -, -⟩ := hds
  have hlimit : s.params.pollLimit.toNat = 62 := by rw [hn]; rfl
  exact ⟨hlimit, by rw [hlen, hlimit]⟩

/-! ### READ_MEAS (R177) -/

/-- Settles O30: the whole text runs, and the command completes with the raw value in VALUE. -/
theorem readMeasReturnsTheCheckedValue : Obligations.ReadMeasReturnsTheCheckedValue := by
  intro s hi lo chk ds rest hp hds hin hchk
  have hrun := runsTo_readMeasBody s.params hds (seqStart .readMeas s.proto) (beginCommand .readMeas s)
  exact ⟨_, (hrun.compareCrc hchk).exec_complete (readMeasText_eq s.params) (by rw [hp]; rfl) hin,
    endedWith_complete rfl rfl, rawValueIsTheConcatenation hi lo, rfl, rfl, rfl, rfl, rfl, rfl⟩

/-- A command whose last statement is ReadMeas's check fails there where the checksum does not agree (R204, R209). -/
theorem RunsTo.exec_mismatch {i : Instr} {s : State} {l : List Stmt} {rs : List Request} {ds : List Draw} {q : Seq}
    {c : Accum} {b : Byte} {ins : List Input} (h : RunsTo l rs ds (seqStart i s.proto) (beginCommand i s) q c b)
    (htext : textOf s.params i = l ++ [.compareCrc]) (hchk : c ≠ mirror q.chk) (hc : q.cmd = i)
    (hadm : admits i s.proto = true) (hin : s.inputs = answers ds ++ ins) :
    exec i s = .next (failedWith i (.checksumMismatch c q.chk) ins (served rs ds c b s)) :=
  h.exec_raise htext rfl (fun n => advance_compareCrc_mismatch (q := seqAt q n) hchk []) hc hadm hin

/-- Settles O31: the text runs up to the check, which raises. -/
theorem readMeasRejectsABadChecksum : Obligations.ReadMeasRejectsABadChecksum := by
  intro s hi lo chk ds rest hp hds hin hchk
  have hrun := runsTo_readMeasBody s.params hds (seqStart .readMeas s.proto) (beginCommand .readMeas s)
  rw [← zext16_shiftLeft_or]
  exact ⟨_, hrun.exec_mismatch (readMeasText_eq s.params) hchk rfl (by rw [hp]; rfl) hin,
    endedWith_raise _, rfl, rfl, rfl, rfl, rfl, rfl, rfl⟩

/-! ### GET_VALUE (R178) -/

/-- A reading takes 209 requests and two for each sample, at most POLL_LIMIT of them (R173, R178). -/
theorem getValueAnswers_bounds {p : Params} {k : Nat} {hi lo chk : Byte} {ds : List Draw}
    (h : GetValueAnswers p k hi lo chk ds) : 1 ≤ k ∧ k ≤ p.pollLimit.toNat ∧ ds.length = 209 + 2 * k := by
  obtain ⟨d1, d2, d3, rfl, ⟨h1, -⟩, ⟨hk, hlimit, h2, -⟩, e1, e2, e3, rfl, ⟨h3, -⟩, ⟨h4, -⟩, h5, -⟩ := h
  refine ⟨hk, hlimit, ?_⟩
  simp only [List.length_append, h1, h2, h3, h4, h5, if_true, Bool.false_eq_true, if_false]
  omega

/-- Settles O32: the whole text runs, and the command completes with the raw value in VALUE. -/
theorem getValueReturnsOneReading : Obligations.GetValueReturnsOneReading := by
  intro s kind k hi lo chk ds rest hp hds hin hchk
  have hrun := runsTo_getValueBody kind (seqStart (.getValue kind) s.proto) (beginCommand (.getValue kind) s) hds
  obtain ⟨hk, hlimit, hlen⟩ := getValueAnswers_bounds hds
  obtain ⟨hclk, hdat⟩ := lines_getValueRequests s.params (commandByteFor s.params kind) k s.clk s.dat
  exact ⟨_, (hrun.compareCrc hchk).exec_complete (getValueText_eq s.params kind) (by rw [hp]; rfl) hin,
    endedWith_complete rfl rfl, hlen,
    rawValueIsTheConcatenation hi lo, rfl, rfl, rfl, toNat_pollcnt_ready hk hlimit, hclk, hdat⟩

/-! ### GET_VALUES (R179) -/

/-- GET_VALUES before its HUMIDITY check (R179). -/
def getValuesBody (p : Params) : List Stmt :=
  getValueBody p .temperature ++ [.compareCrc] ++ [.takeTemp] ++ getValueBody p .humidity

theorem getValuesText_eq (p : Params) : getValuesText p = getValuesBody p ++ [.compareCrc] := by
  rw [getValuesText, getValueText_eq, getValueText_eq, getValuesBody, List.append_assoc _ (getValueBody p .humidity)]

/-- The temporaries after both channels: the TEMPERATURE value kept, the HUMIDITY bytes in `hi`, `lo` and `chk` (R179). -/
def readBoth (hi1 lo1 chk1 hi2 lo2 chk2 : Byte) (q : Seq) : Seq :=
  readTriple hi2 lo2 chk2 { readTriple hi1 lo1 chk1 q with temp := composeRaw hi1 lo1 }

/-- GET_VALUES before its HUMIDITY check, the TEMPERATURE checksum agreeing (R179). -/
theorem runsTo_getValuesBody {k1 k2 : Nat} {hi1 lo1 chk1 hi2 lo2 chk2 : Byte} {ds1 ds2 : List Draw} (q : Seq) (s : State)
    (h1 : GetValueAnswers s.params k1 hi1 lo1 chk1 ds1)
    (h2 : GetValueAnswers s.params k2 hi2 lo2 chk2 ds2)
    (hchk1 : measuredCrc s.params s.params.cmdTemp hi1 lo1 = mirror chk1) :
    RunsTo (getValuesBody s.params)
      (getValueRequests s.params s.params.cmdTemp k1 ++ getValueRequests s.params s.params.cmdHum k2) (ds1 ++ ds2) q s
      (readBoth hi1 lo1 chk1 hi2 lo2 chk2 q) (measuredCrc s.params s.params.cmdHum hi2 lo2)
      (s.params.pollLimit - BitVec.ofNat 8 (k2 - 1)) :=
  ((runsTo_getValueBody .temperature q s h1).compareCrc hchk1).takeTemp.append
    (runsTo_getValueBody .humidity _ (served _ _ _ _ s) h2)

/-- Settles O33: both channels run, and the command completes with both raw values. -/
theorem getValuesReturnsBothReadings : Obligations.GetValuesReturnsBothReadings := by
  intro s k1 k2 hi1 lo1 chk1 hi2 lo2 chk2 ds1 ds2 rest hp h1 h2 hin hchk1 hchk2
  have hrun := runsTo_getValuesBody (seqStart .getValues s.proto) (beginCommand .getValues s) h1 h2 hchk1
  obtain ⟨hk, hlimit, -⟩ := getValueAnswers_bounds h2
  have hlines := lines_getValueRequests s.params s.params.cmdHum k2
  exact ⟨_, (hrun.compareCrc hchk2).exec_complete (getValuesText_eq s.params) (by rw [hp]; rfl) hin,
    endedWith_complete rfl rfl, rawValueIsTheConcatenation hi1 lo1, rawValueIsTheConcatenation hi2 lo2, rfl, rfl,
    toNat_pollcnt_ready hk hlimit, List.foldl_append.trans (hlines _ .low).1, List.foldl_append.trans (hlines .low _).2⟩

/-- Settles O34: both channels run up to the HUMIDITY check, which raises. -/
theorem getValuesDiscardsAHalfReading : Obligations.GetValuesDiscardsAHalfReading := by
  intro s k1 k2 hi1 lo1 chk1 hi2 lo2 chk2 ds1 ds2 rest hp h1 h2 hin hchk1 hchk2
  have hrun := runsTo_getValuesBody (seqStart .getValues s.proto) (beginCommand .getValues s) h1 h2 hchk1
  rw [← zext16_shiftLeft_or]
  exact ⟨_, hrun.exec_mismatch (getValuesText_eq s.params) hchk2 rfl (by rw [hp]; rfl) hin, endedWith_raise _, rfl, rfl,
    rfl⟩

end Sys2Proof.Machine
end

section
/-! SUPPORT. How a command ends (60_exceptions.md R207, R208): it runs on, with STATE TRANSMITTING and the result registers
as they were, until it has succeeded or failed. -/

namespace Sys2Proof.Machine

open Sys2Proof

/-! ### The transition table (R31) and the failure codes (R200) -/

/-- The machine's transitions on success are those of R31 as the statements give them. -/
theorem successState_eq_stateAfterSuccess (i : Instr) (p : ProtoState) : successState i p = stateAfterSuccess i p := by
  cases i with
  | init => cases p <;> rfl
  | _ => rfl

/-- ERR 0 is the code of no failure (R200). -/
theorem Failure.code_ne_zero (e : Failure) : e.code ≠ 0 := by cases e <;> simp [Failure.code]

/-! ### The phases of a command -/

/-- The command `i`, started in `s`, still runs in `t`. -/
structure StillRuns (i : Instr) (s t : State) : Prop where
  results : SameResults s t
  proto : t.proto = .transmitting
  seq : ∃ q, t.seq = some q ∧ q.cmd = i ∧ q.origin = s.proto

/-- The command `i`, started in `s`, has failed in `t` (R208). -/
structure HasFailed (i : Instr) (s t : State) : Prop where
  results : SameResults s t
  err : t.err ≠ 0
  proto : t.proto = failureState (some i)
  seq : t.seq = none
  request : t.request = none

/-- The command `i`, started in `s`, has succeeded in `t` (R207). -/
structure HasSucceeded (i : Instr) (s t : State) : Prop where
  err : t.err = 0
  faultInfo : t.faultInfo = 0x0000
  proto : t.proto = successState i s.proto
  seq : t.seq = none
  request : t.request = none

/-- Where the command `i`, started in `s`, stands in `t`. -/
inductive CommandPhase (i : Instr) (s t : State) : Prop where
  | running (h : StillRuns i s t)
  | failed (h : HasFailed i s t)
  | succeeded (h : HasSucceeded i s t)

section
variable {i : Instr} {s t : State}

/-- A failure of the running command ends it, with no result register written (R206, R208). -/
theorem hasFailed_raise (e : Failure) {q : Seq} (hres : SameResults s t) (hq : t.seq = some q) (hcmd : q.cmd = i) :
    HasFailed i s (raise e t) where
  results := hres
  err := e.code_ne_zero
  proto := by rw [raise_proto, hq, Option.map_some, hcmd]
  seq := rfl
  request := rfl

/-- The end of the text is success (R207). -/
theorem hasSucceeded_complete {q : Seq} (hcmd : q.cmd = i) (horigin : q.origin = s.proto) :
    HasSucceeded i s (complete q t) where
  err := rfl
  faultInfo := rfl
  proto := by rw [complete_proto, hcmd, horigin]
  seq := rfl
  request := rfl

/-- A stretch of statements ends the command or leaves it at a request, its result registers not written. -/
theorem StillRuns.advanceFrom (h : StillRuns i s t) {q : Seq} (hcmd : q.cmd = i) (horigin : q.origin = s.proto) :
    CommandPhase i s (advanceFrom q t) := by
  obtain ⟨q', c, p, hc, ho, hdone | ⟨e, hfail⟩ | ⟨r, hwait⟩⟩ := advance_cases (seqRest t.params q) q t
  · rw [Machine.advanceFrom, hdone]
    exact .succeeded (hasSucceeded_complete (hc.trans hcmd) (ho.trans horigin))
  · rw [Machine.advanceFrom, hfail]
    exact .failed (hasFailed_raise e h.results rfl (hc.trans hcmd))
  · rw [Machine.advanceFrom, hwait]
    exact .running ⟨h.results, h.proto, q', rfl, hc.trans hcmd, ho.trans horigin⟩

/-- A request that succeeds leaves the command running (R101). -/
theorem StillRuns.lineDone (h : StillRuns i s t) (r : Request) (l : Bool) (p : Word) :
    StillRuns i s (lineDone r l (recordEvent r p t)) where
  results := by simpa [SameResults] using h.results
  proto := by simpa using h.proto
  seq := by
    obtain ⟨q, hq, hcmd, horigin⟩ := h.seq
    obtain ⟨l', hl'⟩ := lineDone_seq_some r l (s := recordEvent r p t) hq
    exact ⟨_, hl', hcmd, horigin⟩

/-- A response acted on fails the command, or lets it go on to its next phase (R27, R101). -/
theorem StillRuns.resume_takeResponse (h : StillRuns i s t) (r : Request) (p : Word) :
    CommandPhase i s (resume (takeResponse r p t)) := by
  obtain ⟨q, hq, hcmd, horigin⟩ := h.seq
  obtain ⟨e, hgo⟩ | ⟨l, hgo⟩ := Machine.resume_takeResponse r p hq
  · have hres : SameResults s (lineFailed r (recordEvent r p t)) := by simpa [SameResults] using h.results
    rw [hgo]
    exact .failed (hasFailed_raise e hres (by simpa using hq) hcmd)
  · rw [hgo]
    exact (h.lineDone r _ p).advanceFrom hcmd horigin

/-- An answer to an outstanding request finds the command running. -/
theorem CommandPhase.resume_answerRequest (h : CommandPhase i s t) {w : ReqWord} (hw : t.request = some w) (r : Request)
    (d : Draw) : CommandPhase i s (resume (answerRequest r d t)) := by
  cases h with
  | running h => exact h.resume_takeResponse r (respond r d)
  | failed h => exact absurd (h.request.symm.trans hw) nofun
  | succeeded h => exact absurd (h.request.symm.trans hw) nofun

/-- The events to come have no part in a command's phase. -/
theorem CommandPhase.setInputs (h : CommandPhase i s t) (ins : List Input) : CommandPhase i s { t with inputs := ins } := by
  cases h with
  | running h => exact .running ⟨h.results, h.proto, h.seq⟩
  | failed h => exact .failed ⟨h.results, h.err, h.proto, h.seq, h.request⟩
  | succeeded h => exact .succeeded ⟨h.err, h.faultInfo, h.proto, h.seq, h.request⟩

/-- A command that has been run as far as the answers go still runs, has failed or has succeeded. -/
theorem commandPhase_of_runCommand (h : runCommand i s = .next t) : CommandPhase i s t := by
  obtain ⟨-, rfl⟩ := runCommand_next i s t h
  have hbegun : StillRuns i s (beginCommand i s) := ⟨⟨rfl, rfl, rfl⟩, rfl, _, rfl, rfl, rfl⟩
  exact drain_keeps (CommandPhase i s) (fun _ ins h => h.setInputs ins)
    (fun _ _ r d h hw _ => h.resume_answerRequest hw r d) _ _ (hbegun.advanceFrom rfl rfl)

/-- A command that has ended has failed if ERR is not 0, and has succeeded if it is. -/
theorem CommandPhase.ended (h : CommandPhase i s t) (hp : t.proto ≠ .transmitting) :
    (t.err ≠ 0 → HasFailed i s t) ∧ (t.err = 0 → HasSucceeded i s t) := by
  cases h with
  | running h => exact absurd h.proto hp
  | failed h => exact ⟨fun _ => h, fun he => absurd he h.err⟩
  | succeeded h => exact ⟨fun he => absurd h.err he, fun _ => h⟩

/-- The end of a command that a step ran (R207, R208). -/
theorem ended_of_exec (hi : i.isCommand = true) (hexec : exec i s = .next t) (hp : t.proto ≠ .transmitting) :
    (t.err ≠ 0 → HasFailed i s t) ∧ (t.err = 0 → HasSucceeded i s t) := by
  rw [exec_command i s hi] at hexec
  exact (commandPhase_of_runCommand hexec).ended hp

end

/-- Settles O44: a command that ended with ERR not 0 has failed, by a failure of its text or of a request. -/
theorem failureReturnsNoPartialResult : Obligations.FailureReturnsNoPartialResult := by
  intro i s t hi hexec hp herr
  have h := (ended_of_exec hi hexec hp).1 herr
  exact ⟨h.results, h.seq, h.proto.trans (failureState_some i)⟩

/-- Settles O45: a command that ended with ERR 0 has come to the end of its text. -/
theorem successFollowsTheTransitionTable : Obligations.SuccessFollowsTheTransitionTable := by
  intro i s t hi hexec hp herr
  have h := (ended_of_exec hi hexec hp).2 herr
  exact ⟨h.faultInfo, h.seq, h.proto.trans (successState_eq_stateAfterSuccess i s.proto)⟩

end Sys2Proof.Machine
end

section
/-! SUPPORT. Power-on reset, the run that has ended, and the way out of FAILED (70_reset_and_hazards.md R230 to R232, R237,
R242). -/

namespace Sys2Proof.Machine

open Sys2Proof

/-! ### Power-on reset (R230, R231) -/

/-- Every register reads 0x0000 at reset (R230). CMD has no storage, and its read is refused (R23). -/
theorem registerValue_reset (r : HostReg) : registerValue State.reset r = 0x0000 := by cases r <;> rfl

/-- A power-on reset leaves the registers as `State.reset` holds them (R230). -/
@[simp] theorem registerValue_powerOnReset (s : State) (r : HostReg) :
    registerValue (powerOnReset s) r = registerValue State.reset r := by cases r <;> rfl

/-- Settles O1: each clause is a field of the fixed reset state, the last one its registers. -/
theorem resetHoldsThePorValues : Obligations.ResetHoldsThePorValues :=
  ⟨rfl, rfl, rfl, rfl, rfl, rfl, rfl, rfl, rfl, rfl, rfl, rfl, fun r _ => registerValue_reset r⟩

/-- Settles O2: the step is `powerOnReset`, which puts the fields of `State.reset` in place of whatever was there. -/
theorem porStepRestoresEveryRegister : Obligations.PorStepRestoresEveryRegister := fun _ _ hin =>
  ⟨_, step_por hin, rfl, rfl, rfl, rfl, rfl, rfl, rfl, rfl, rfl, rfl, rfl, rfl,
    fun r _ => (registerValue_powerOnReset _ r).trans (registerValue_reset r)⟩

/-- Settles O55: the bus trace of the reset state is empty. -/
theorem resetBusIsLegal : Obligations.ResetBusIsLegal :=
  ⟨rfl, rfl, (legalBus_iff State.reset).mpr ⟨rfl, nofun⟩⟩

/-- Settles O60: a run that has ended has no event to come. -/
theorem endedRunStays : Obligations.EndedRunStays := by
  intro s hended
  obtain ⟨hin, -⟩ := hended
  exact step_idle hin

/-! ### The way out of FAILED (R242, R213) -/

/-- Of the commands admitted in FAILED, RESET alone succeeds into IDLE (R31, R80). -/
theorem eq_reset_of_successState {i : Instr} (hadm : admits i .failed = true) (h : successState i .failed = .idle) :
    i = .reset := by
  cases i
  case reset => rfl
  case init | crcMutate | mirror => cases h
  all_goals cases hadm

/-- A failure leaves UNINITIALIZED or FAILED, never IDLE (R31, R208). -/
theorem failureState_ne_idle (c : Option Instr) : failureState c ≠ .idle := by
  unfold failureState
  split <;> decide

section
variable {i : Instr} {s t : State}

/-- A command that started in FAILED and stands in IDLE is a RESET that has succeeded (R242). -/
theorem CommandPhase.eq_reset (h : CommandPhase i s t) (hs : s.proto = .failed) (hadm : admits i s.proto = true)
    (ht : t.proto = .idle) : i = .reset := by
  rw [hs] at hadm
  cases h with
  | running h => exact absurd (h.proto.symm.trans ht) (by decide)
  | failed h => exact absurd (h.proto.symm.trans ht) (failureState_ne_idle _)
  | succeeded h => exact eq_reset_of_successState hadm (hs ▸ h.proto.symm.trans ht)

/-- A running command goes on to one of its phases for as long as answers are there (R62). -/
theorem CommandPhase.runOn (h : CommandPhase i s t) : CommandPhase i s (runOn t) :=
  drain_keeps (CommandPhase i s) (fun _ ins h => h.setInputs ins)
    (fun _ _ r d h hw _ => h.resume_answerRequest hw r d) _ _ h

/-- The engine, held, goes on to one of the running command's phases (R27). -/
theorem StillRuns.proceed (h : StillRuns i s t) : CommandPhase i s (proceed t) := by
  obtain ⟨q, hq, hcmd, horigin⟩ := h.seq
  obtain ⟨q', hq', -, hgo⟩ | ⟨q', w, p, r, hq', -, -, -, hgo⟩ | hgo := proceed_cases t <;> rw [hgo]
  · obtain rfl : q' = q := Option.some.inj (hq'.symm.trans hq)
    exact (h.advanceFrom hcmd horigin).runOn
  · obtain rfl : q' = q := Option.some.inj (hq'.symm.trans hq)
    have hacts : StillRuns i s { t with seq := some { q' with reply := none } } :=
      ⟨h.results, h.proto, _, rfl, hcmd, horigin⟩
    exact (hacts.resume_takeResponse r p).runOn
  · exact .running h

end

/-- A running command started in a state with its S0 and the same result registers (R64, R205). -/
theorem stillRuns_of_running {s : State} {q : Seq} (hp : s.proto = .transmitting) (hq : s.seq = some q)
    (ins : List Input) : StillRuns q.cmd { s with proto := q.origin } { s with inputs := ins } :=
  ⟨⟨rfl, rfl, rfl⟩, hp, q, hq, rfl, rfl⟩

/-- From FAILED, only a CMD write of RESET leads to IDLE: no command runs there, so that no event but a CMD write starts
one (R213, R242). -/
theorem cmdWrite_reset_of_idle {s t : State} (hcoh : Coherent s) (hstep : Taken s t) (hs : s.proto = .failed)
    (ht : t.proto = .idle) : ∃ ins, s.inputs = .hostWrite 0 0x0200 :: ins := by
  obtain ⟨hproto, hrequest, -⟩ := hcoh
  have hseq : s.seq = none := by simpa [hs] using hproto
  have hnone : s.request = none := hrequest hseq
  have hstays : s.proto ≠ .idle := by rw [hs]; decide
  cases hstep with
  | idle => exact absurd ht hstays
  | @command w i ins hin hdec hadm =>
    have hphase := commandPhase_of_runCommand (runCommand_admitted i { s with inputs := ins } hadm)
    obtain rfl := hphase.eq_reset hs hadm ht
    obtain rfl : 0x0200 = w := Option.some.inj (commandWord?_of_decodeCommand hdec)
    exact ⟨ins, hin⟩
  | commandHeld => cases ht
  | read => exact absurd ht hstays
  | por => cases ht
  | answer _ haw =>
    obtain ⟨w, hw, -, -⟩ := awaited_ok _ _ haw
    exact absurd (hnone.symm.trans hw) nofun
  | answerHeld _ _ hq => exact absurd (hseq.symm.trans hq) nofun
  | @proceed ins =>
    rw [proceed_notHeld (s := { s with inputs := ins }) (.inl hseq)] at ht
    exact absurd ht hstays

/-- A running command that started in FAILED and has led to IDLE is a RESET: only an answer, or the engine's going on, ends
a command (R242). -/
theorem cmd_eq_reset_of_idle {s t : State} {q : Seq} (hcoh : Coherent s) (hstep : Taken s t) (hq : s.seq = some q)
    (horigin : q.origin = .failed) (ht : t.proto = .idle) : q.cmd = .reset := by
  obtain ⟨hproto, -, -, hadmitted, -⟩ := hcoh
  have hp : s.proto = .transmitting := hproto.mpr (by rw [hq]; rfl)
  have hadm : admits q.cmd q.origin = true := by simpa [hq] using hadmitted
  have hstays : s.proto ≠ .idle := by rw [hp]; decide
  have hruns := stillRuns_of_running hp hq
  cases hstep with
  | idle => exact absurd ht hstays
  | command _ _ ha => exact absurd hp (ne_transmitting_of_admits ha)
  | commandHeld => cases ht
  | read => exact absurd ht hstays
  | por => cases ht
  | @answer r d ins =>
    exact ((hruns ins).resume_takeResponse r (respond r d)).runOn.eq_reset horigin hadm ht
  | answerHeld => exact absurd ht hstays
  | @proceed ins => exact (hruns ins).proceed.eq_reset horigin hadm ht

/-- Settles O57, by the event the step took: from FAILED, and while a command that started there runs. -/
theorem onlyResetLeavesFailed : Obligations.OnlyResetLeavesFailed := fun _ _ hcoh hstep ht =>
  ⟨fun hs => cmdWrite_reset_of_idle hcoh (step_taken hstep) hs ht,
    fun _ hq horigin => cmd_eq_reset_of_idle hcoh (step_taken hstep) hq horigin ht⟩

end Sys2Proof.Machine
end

section
/-! SUPPORT. What the requests of an operation cost: how many they are, how many of them are WAITs, and for how long
(70_reset_and_hazards.md R245). -/

namespace Sys2Proof.Machine

open Sys2Proof

/-! ### The cost of a list of requests -/

/-- A WAIT (R82). -/
def Request.isWait (r : Request) : Bool := r.kind == 0x7

/-- The requests are `n`, of which `w` are WAITs, of `us` microseconds in all. -/
structure Costs (rs : List Request) (n w us : Nat) : Prop where
  length : rs.length = n
  waits : rs.countP Request.isWait = w
  time : ((rs.filter Request.isWait).map fun r => r.dur.toNat).sum = us

section
variable {rs r1 r2 : List Request} {n n1 n2 w w1 w2 us us1 us2 : Nat}

/-- The costs of two lists one after the other add up. -/
theorem Costs.append (h1 : Costs r1 n1 w1 us1) (h2 : Costs r2 n2 w2 us2) :
    Costs (r1 ++ r2) (n1 + n2) (w1 + w2) (us1 + us2) where
  length := by rw [List.length_append, h1.length, h2.length]
  waits := by rw [List.countP_append, h1.waits, h2.waits]
  time := by rw [List.filter_append, List.map_append, List.sum_append, h1.time, h2.time]

/-- Lists of one cost, one after the other. -/
theorem Costs.flatten {ls : List (List Request)} (h : ∀ rs ∈ ls, Costs rs n w us) :
    Costs ls.flatten (n * ls.length) (w * ls.length) (us * ls.length) := by
  induction ls with
  | nil => exact ⟨rfl, rfl, rfl⟩
  | cons rs ls ih =>
    obtain ⟨hfirst, hrest⟩ := List.forall_mem_cons.mp h
    rw [List.flatten_cons, List.length_cons, Nat.mul_succ, Nat.mul_succ, Nat.mul_succ, Nat.add_comm _ n, Nat.add_comm _ w,
      Nat.add_comm _ us]
    exact hfirst.append (ih hrest)

end

/-! ### The cost of what the trace gains -/

theorem map_request_eventsOf {rs : List Request} : ∀ {ds : List Draw}, rs.length = ds.length →
    (eventsOf rs ds).map BusEvent.request = rs.map Request.word := by
  induction rs with
  | nil => exact fun _ => rfl
  | cons r rs ih =>
    intro ds hlen
    cases ds with
    | nil => cases hlen
    | cons d ds => exact congrArg (r.word :: ·) (ih (Nat.succ.inj hlen))

/-- The fields of a request's word (R81). -/
theorem kindField_word (r : Request) : kindField r.word = r.kind := (fields_of_decodeRequest (decodeRequest_word r)).1

theorem durField_word (r : Request) : durField r.word = r.dur := (fields_of_decodeRequest (decodeRequest_word r)).2

theorem waitCount_eventsOf {rs : List Request} {ds : List Draw} (hlen : rs.length = ds.length) :
    waitCount (eventsOf rs ds) = rs.countP Request.isWait := by
  calc waitCount (eventsOf rs ds)
      = ((eventsOf rs ds).map BusEvent.request).countP fun q => kindField q == 0x7 := by
        rw [List.countP_map]
        rfl
    _ = rs.countP Request.isWait := by
      rw [map_request_eventsOf hlen, List.countP_map]
      exact List.countP_congr fun r _ => by rw [Function.comp, kindField_word, Request.isWait]

theorem waitTime_eventsOf {rs : List Request} {ds : List Draw} (hlen : rs.length = ds.length) :
    waitTime (eventsOf rs ds) = ((rs.filter Request.isWait).map fun r => r.dur.toNat).sum := by
  have hwait : (fun q => kindField q == 0x7) ∘ Request.word = Request.isWait :=
    funext fun r => congrArg (· == 0x7) (kindField_word r)
  have hdur : (fun q => (durField q).toNat) ∘ Request.word = fun r => r.dur.toNat :=
    funext fun r => congrArg BitVec.toNat (durField_word r)
  calc waitTime (eventsOf rs ds)
      = ((((eventsOf rs ds).map BusEvent.request).filter fun q => kindField q == 0x7).map
          fun q => (durField q).toNat).sum := by rw [List.filter_map, List.map_map]; rfl
    _ = ((rs.filter Request.isWait).map fun r => r.dur.toNat).sum := by
      rw [map_request_eventsOf hlen, List.filter_map, List.map_map, hwait, hdur]

theorem waitCount_reverse (es : List BusEvent) : waitCount es.reverse = waitCount es := List.countP_reverse

theorem waitTime_reverse (es : List BusEvent) : waitTime es.reverse = waitTime es := by
  rw [waitTime, List.filter_reverse, List.map_reverse, List.sum_reverse, waitTime]

section
variable {s : State} {i : Instr} {rs : List Request} {ds : List Draw} {n w us : Nat}

/-- A command whose trace gains requests that are all answered gains their cost (R245). -/
theorem Costs.traceGains (hc : Costs rs n w us) (hlen : ds.length = n)
    (h : s.proto ∈ admittedStates i → ∃ t, exec i s = .next t ∧ t.seq = none ∧ t.request = none ∧
      t.trace = (eventsOf rs ds).reverse ++ s.trace) : TraceGains s i n w us := by
  intro hadm
  obtain ⟨t, hexec, hseq, hrequest, htrace⟩ := h hadm
  have hmatch : rs.length = ds.length := hc.length.trans hlen.symm
  have hevents : (eventsOf rs ds).length = rs.length := by rw [eventsOf, List.length_zipWith, ← hmatch, Nat.min_self]
  refine ⟨t, _, hexec, hseq, hrequest, htrace, ?_, ?_, ?_⟩
  · rw [List.length_reverse, hevents, hc.length]
  · rw [waitCount_reverse, waitCount_eventsOf hmatch, hc.waits]
  · rw [waitTime_reverse, waitTime_eventsOf hmatch, hc.time]

/-- The same of a command of which it is known how it ended, and more (`P`). -/
theorem Costs.traceGains_of_endedWith (hc : Costs rs n w us) (hlen : ds.length = n) {proto : ProtoState} {err : BitVec 3}
    {info : Word} {rest : List Input} {P : State → Prop}
    (h : s.proto ∈ admittedStates i →
      ∃ t, exec i s = .next t ∧ EndedWith s t proto err info rs ds rest ∧ P t) : TraceGains s i n w us := by
  refine hc.traceGains hlen fun hadm => ?_
  obtain ⟨t, hexec, ⟨-, -, -, hseq, hrequest, htrace, -⟩, -⟩ := h hadm
  exact ⟨t, hexec, hseq, hrequest, htrace⟩

end

/-! ### The cost of each operation, with the normative literals (R6) -/

section
variable {p : Params} (hn : Normative p)
include hn

theorem costs_initRequests : Costs (initRequests p) 3 1 20000 := by
  rw [initRequests, hn]
  exact ⟨rfl, rfl, rfl⟩

theorem costs_tStartRequests : Costs (tStartRequests p) 12 6 12 := by
  rw [tStartRequests, hn]
  exact ⟨rfl, rfl, rfl⟩

/-- A data bit costs the same, 0 or 1 (R147). -/
theorem costs_sendBitRequests (b : Bool) : Costs (sendBitRequests p b) 6 3 6 := by
  rw [sendBitRequests, hn]
  cases b <;> exact ⟨rfl, rfl, rfl⟩

/-- The eight data bits of SendByte (R146). -/
theorem costs_sendBits (v : Byte) :
    Costs ([7, 6, 5, 4, 3, 2, 1, 0].flatMap fun i => sendBitRequests p (v.getLsbD i)) 48 24 48 := by
  refine Costs.flatten (n := 6) (w := 3) (us := 6)
    (ls := [7, 6, 5, 4, 3, 2, 1, 0].map fun i => sendBitRequests p (v.getLsbD i)) fun rs hrs => ?_
  obtain ⟨i, -, rfl⟩ := List.mem_map.mp hrs
  exact costs_sendBitRequests hn (v.getLsbD i)

theorem costs_sendRequests (v : Byte) : Costs (sendRequests p v) 57 28 56 := by
  have hack : Costs [.clkLow, .wait p.tBit, .datRelease, .wait p.tBit, .clkHigh, .wait p.tBit, .sample, .clkLow,
      .wait p.tBit] 9 4 8 := by
    rw [hn]
    exact ⟨rfl, rfl, rfl⟩
  exact (costs_sendBits hn v).append hack

/-- SendByte up to the acknowledgement sample (R148). -/
theorem costs_sendRequests_nack (v : Byte) : Costs ((sendRequests p v).take 55) 55 27 54 := by
  have hsample : Costs [.clkLow, .wait p.tBit, .datRelease, .wait p.tBit, .clkHigh, .wait p.tBit, .sample] 7 3 6 := by
    rw [hn]
    exact ⟨rfl, rfl, rfl⟩
  exact (costs_sendBits hn v).append hsample

theorem costs_readRequests_ack : Costs (readRequests p true) 48 20 40 := by
  rw [readRequests, hn]
  exact ⟨rfl, rfl, rfl⟩

theorem costs_readRequests_noAck : Costs (readRequests p false) 44 18 36 := by
  rw [readRequests, hn]
  exact ⟨rfl, rfl, rfl⟩

theorem costs_resetRequests : Costs (resetRequests p) 106 52 104 := by
  have hpulses : Costs (.datHigh :: (List.replicate p.resetToggles
      [.clkHigh, .wait p.tBit, .clkLow, .wait p.tBit]).flatten) 37 18 36 := by
    rw [hn]
    exact ⟨rfl, rfl, rfl⟩
  exact (hpulses.append (costs_tStartRequests hn)).append (costs_sendRequests hn p.cmdReset)

theorem costs_startRequests (cmd : Byte) : Costs (startRequests p cmd) 69 34 68 :=
  (costs_tStartRequests hn).append (costs_sendRequests hn cmd)

/-- Poll costs a WAIT and a SAMPLE for each of its samples (R173). -/
theorem costs_pollRequests (k : Nat) : Costs (pollRequests p k) (2 * k) k (5000 * k) := by
  have hsample : Costs [.wait p.tPoll, .sample] 2 1 5000 := by
    rw [hn]
    exact ⟨rfl, rfl, rfl⟩
  have hall := Costs.flatten (ls := List.replicate k [.wait p.tPoll, .sample]) fun rs hrs =>
    List.eq_of_mem_replicate hrs ▸ hsample
  rwa [List.length_replicate, Nat.one_mul] at hall

theorem costs_readMeasRequests : Costs (readMeasRequests p) 140 58 116 :=
  ((costs_readRequests_ack hn).append (costs_readRequests_ack hn)).append (costs_readRequests_noAck hn)

theorem costs_getValueRequests (cmd : Byte) (k : Nat) :
    Costs (getValueRequests p cmd k) (209 + 2 * k) (92 + k) (184 + 5000 * k) := by
  have h := ((costs_startRequests hn cmd).append (costs_pollRequests hn k)).append (costs_readMeasRequests hn)
  exact ⟨h.length.trans (by omega), h.waits.trans (by omega), h.time.trans (by omega)⟩

theorem costs_getValuesRequests (cmd1 cmd2 : Byte) (k1 k2 : Nat) :
    Costs (getValueRequests p cmd1 k1 ++ getValueRequests p cmd2 k2) (418 + 2 * (k1 + k2)) (184 + (k1 + k2))
      (368 + 5000 * (k1 + k2)) := by
  have h := (costs_getValueRequests hn cmd1 k1).append (costs_getValueRequests hn cmd2 k2)
  exact ⟨h.length.trans (by omega), h.waits.trans (by omega), h.time.trans (by omega)⟩

end

/-! ### The rows of R245 -/

section
variable {s : State} {ds : List Draw} {rest : List Input}

/-- The CRC commands issue no request (R125, R126). -/
theorem traceGains_crcMutate (b : Byte) : TraceGains s (.crcMutate b) 0 0 0 :=
  Costs.traceGains (rs := []) (ds := []) ⟨rfl, rfl, rfl⟩ rfl fun hadm =>
    ⟨_, crcMutateFoldsTheByte s b (ne_transmitting_of_admits ((admits_iff _ _).mpr hadm)), rfl, rfl, rfl⟩

theorem traceGains_mirror (b : Byte) : TraceGains s (.mirror b) 0 0 0 :=
  Costs.traceGains (rs := []) (ds := []) ⟨rfl, rfl, rfl⟩ rfl fun hadm => by
    obtain ⟨v, -, hexec⟩ := mirrorWritesTheReversedByte s b (ne_transmitting_of_admits ((admits_iff _ _).mpr hadm))
    exact ⟨_, hexec, rfl, rfl, rfl⟩

variable (hn : Normative s.params) (hin : s.inputs = answers ds ++ rest)
include hn hin

theorem traceGains_init (h : InitAnswers ds) : TraceGains s .init 3 1 20000 :=
  (costs_initRequests hn).traceGains h.1 fun hadm =>
    ⟨_, initEstablishesTheIdleState s ds rest (ne_transmitting_of_admits ((admits_iff _ _).mpr hadm)) h hin, rfl, rfl, rfl⟩

theorem traceGains_reset (h : ResetAnswers s.params ds) : TraceGains s .reset 106 52 104 := by
  have hlen : ds.length = 106 := h.1.trans (by rw [hn]; rfl)
  exact (costs_resetRequests hn).traceGains_of_endedWith hlen fun hadm =>
    resetForcesTheSensorOut s ds rest (by simpa [admittedStates] using hadm) h hin

theorem traceGains_tstart (h : TStartAnswers ds) : TraceGains s .tstart 12 6 12 :=
  (costs_tStartRequests hn).traceGains_of_endedWith h.1 fun hadm =>
    tstartClearsTheCrc s ds rest (List.mem_singleton.mp hadm) h hin

theorem traceGains_sendByte_ack (v : Byte) (h : AckAnswers ds) : TraceGains s (.sendByte v) 57 28 56 :=
  (costs_sendRequests hn v).traceGains_of_endedWith h.1 fun hadm =>
    sendByteFoldsAnAcknowledgedByte s v ds rest (List.mem_singleton.mp hadm) h hin

theorem traceGains_sendByte_nack (v : Byte) (h : NackAnswers ds) : TraceGains s (.sendByte v) 55 27 54 :=
  (costs_sendRequests_nack hn v).traceGains_of_endedWith h.1 fun hadm =>
    sendByteNackLeavesTheCrc s v ds rest (List.mem_singleton.mp hadm) h hin

theorem traceGains_readByte_ack (v : Byte) (h : ReadAnswers true v ds) : TraceGains s (.readByte true) 48 20 40 :=
  (costs_readRequests_ack hn).traceGains_of_endedWith h.1 fun hadm =>
    readByteAssemblesTheByte s true v ds rest (List.mem_singleton.mp hadm) h hin

theorem traceGains_readByte_noAck (v : Byte) (h : ReadAnswers false v ds) : TraceGains s (.readByte false) 44 18 36 :=
  (costs_readRequests_noAck hn).traceGains_of_endedWith h.1 fun hadm =>
    readByteAssemblesTheByte s false v ds rest (List.mem_singleton.mp hadm) h hin

theorem traceGains_startMeas (kind : Kind) (h : StartAnswers ds) : TraceGains s (.startMeas kind) 69 34 68 :=
  (costs_startRequests hn _).traceGains_of_endedWith h.1 fun hadm =>
    startMeasSendsTheCommandByte s kind ds rest (List.mem_singleton.mp hadm) h hin

theorem traceGains_poll_ready (k : Nat) (h : ReadyAnswers s.params k ds) : TraceGains s .poll (2 * k) k (5000 * k) := by
  have ⟨_, _, hlen, _⟩ := h
  exact (costs_pollRequests hn k).traceGains_of_endedWith hlen fun hadm =>
    pollSucceedsOnTheReadySample s k ds rest (List.mem_singleton.mp hadm) h hin

/-- POLL_LIMIT is 62 (R6). -/
theorem traceGains_poll_timeout (h : NeverReadyAnswers s.params ds) : TraceGains s .poll 124 62 310000 := by
  have ⟨_, hlen, _⟩ := h
  have hgains := (costs_pollRequests hn s.params.pollLimit.toNat).traceGains_of_endedWith hlen fun hadm =>
    pollTimesOutAfterSixtyTwoSamples s ds rest (List.mem_singleton.mp hadm) h hin
  have hlimit : s.params.pollLimit.toNat = 62 := by rw [hn]; rfl
  rwa [hlimit] at hgains

theorem traceGains_readMeas (hi lo chk : Byte) (h : ReadMeasAnswers hi lo chk ds)
    (hchk : mutate s.params.poly (mutate s.params.poly s.crc hi) lo = mirror chk) : TraceGains s .readMeas 140 58 116 := by
  have hlen : ds.length = 140 := by
    obtain ⟨d1, d2, d3, rfl, ⟨h1, -⟩, ⟨h2, -⟩, h3, -⟩ := h
    rw [List.length_append, List.length_append, h1, h2, h3]
    rfl
  exact (costs_readMeasRequests hn).traceGains_of_endedWith hlen fun hadm =>
    readMeasReturnsTheCheckedValue s hi lo chk ds rest (List.mem_singleton.mp hadm) h hin hchk

theorem traceGains_getValue (kind : Kind) (k : Nat) (hi lo chk : Byte) (h : GetValueAnswers s.params k hi lo chk ds)
    (hchk : measuredCrc s.params (commandByteFor s.params kind) hi lo = mirror chk) :
    TraceGains s (.getValue kind) (209 + 2 * k) (92 + k) (184 + 5000 * k) := by
  obtain ⟨-, -, hlen⟩ := getValueAnswers_bounds h
  exact (costs_getValueRequests hn _ k).traceGains_of_endedWith hlen fun hadm =>
    getValueReturnsOneReading s kind k hi lo chk ds rest (List.mem_singleton.mp hadm) h hin hchk

theorem traceGains_getValues (k1 k2 : Nat) (hi1 lo1 chk1 hi2 lo2 chk2 : Byte) (ds1 ds2 : List Draw) (hds : ds = ds1 ++ ds2)
    (h1 : GetValueAnswers s.params k1 hi1 lo1 chk1 ds1) (h2 : GetValueAnswers s.params k2 hi2 lo2 chk2 ds2)
    (hchk1 : measuredCrc s.params s.params.cmdTemp hi1 lo1 = mirror chk1)
    (hchk2 : measuredCrc s.params s.params.cmdHum hi2 lo2 = mirror chk2) :
    TraceGains s .getValues (418 + 2 * (k1 + k2)) (184 + (k1 + k2)) (368 + 5000 * (k1 + k2)) := by
  subst hds
  obtain ⟨-, -, hlen1⟩ := getValueAnswers_bounds h1
  obtain ⟨-, -, hlen2⟩ := getValueAnswers_bounds h2
  have hlen : (ds1 ++ ds2).length = 418 + 2 * (k1 + k2) := by rw [List.length_append, hlen1, hlen2]; omega
  exact (costs_getValuesRequests hn _ _ k1 k2).traceGains_of_endedWith hlen fun hadm =>
    getValuesReturnsBothReadings s k1 k2 hi1 lo1 chk1 hi2 lo2 chk2 ds1 ds2 rest (List.mem_singleton.mp hadm) h1 h2 hin
      hchk1 hchk2

end

/-- Settles O52, row by row: the requests each command is known to add to the trace, at their cost. -/
theorem minimumWaits : Obligations.MinimumWaits := fun _ _ _ hn hin =>
  ⟨traceGains_init hn hin, traceGains_reset hn hin, traceGains_tstart hn hin, traceGains_sendByte_ack hn hin,
    traceGains_sendByte_nack hn hin, traceGains_readByte_ack hn hin, traceGains_readByte_noAck hn hin,
    traceGains_startMeas hn hin, traceGains_poll_ready hn hin, traceGains_poll_timeout hn hin, traceGains_readMeas hn hin,
    traceGains_getValue hn hin, traceGains_getValues hn hin, fun b => ⟨traceGains_crcMutate b, traceGains_mirror b⟩⟩

end Sys2Proof.Machine
end
